-- ==== Sys2Proof/Word.lean ====
section
/-!
DEFINITION. The word types of the Lingil W3 model and the names of its units (R15, R19, R41, R42).
-/
namespace Sys2Proof

/-- A register, or a sweeper general register: 64 bits (R169, the "Registers" section of 00_scope). -/
abbrev Word := BitVec 64
/-- One byte of SRAM, of a stored record or of a message. -/
abbrev Byte := BitVec 8
/-- The bits of one binary32 value (R138). -/
abbrev F32 := BitVec 32
/-- A sweeper vector register: 1,024 bytes, byte 0 in the low bits (R169). -/
abbrev VReg := BitVec 8192
/-- A physical district, 0 to 59 (R19 table). -/
abbrev DistId := Fin 60
/-- A physical lot of a parcel, 0 to 17. -/
abbrev LotId := Fin 18
/-- A memory stack and its controller, 0 to 23. -/
abbrev StackId := Fin 24
/-- A data port block, 0 to 15. -/
abbrev PortId := Fin 16

/-- A physical parcel: district and place 0 to 143 in it (R41). -/
structure Pid where
  d : DistId
  p : Fin 144
deriving DecidableEq, Repr, Inhabited

/-- The number 144 d + p that orders the physical parcels of the engine (R20, R344). -/
def Pid.key (i : Pid) : Nat := 144 * i.d.val + i.p.val

/-- The key of physical lot `l` of parcel `i`. -/
def Pid.lotKey (i : Pid) (l : LotId) : Nat := 18 * i.key + l.val

end Sys2Proof
end

