-- ==== Sys2Proof/Syntax.lean ====
section
/-!
DEFINITION. The commands of the block: one constructor of `Instr` for each of the 281 rows of spec/opcode_table.json,
in the table's order, with the row's operands.

A Plat instruction (R178 to R233) carries the 54 operand bits of its word, cut into the fields of its layout; the four
CLASS bits and the six OP bits are what the constructor says. `rsv` and `rsvHi` are the reserved bits of the layout: a
nonzero value in them is an ILLEGAL word (R179), which the command can therefore name.
-/
namespace Sys2Proof

/-! ### Plat operand fields -/

/-- ALU layout (R180): RD, RS1, RS2, IMMF, six reserved bits, IMM32. -/
structure AluOps where
  rd : BitVec 5
  rs1 : BitVec 5
  rs2 : BitVec 5
  immf : Bool
  rsv : BitVec 6
  imm : BitVec 32
deriving DecidableEq, Repr

/-- IMM layout (R180): RD, reserved bit 48, IMM48. -/
structure ImmOps where
  rd : BitVec 5
  rsv : BitVec 1
  imm : BitVec 48
deriving DecidableEq, Repr

/-- MEM layout (R180): RD, RB, reserved bits 43:32, OFF32. -/
structure MemOps where
  rd : BitVec 5
  rb : BitVec 5
  rsv : BitVec 12
  off : BitVec 32
deriving DecidableEq, Repr

/-- BR layout (R180): RD, RS1, RS2, reserved bits 38:32, OFF32. -/
structure BrOps where
  rd : BitVec 5
  rs1 : BitVec 5
  rs2 : BitVec 5
  rsv : BitVec 7
  off : BitVec 32
deriving DecidableEq, Repr

/-- VEC layout (R185). -/
structure VecOps where
  vd : BitVec 3
  vs1 : BitVec 3
  vs2 : BitVec 3
  et : BitVec 4
  sc : Bool
  rs : BitVec 5
  rd : BitVec 5
  rsv : BitVec 30
deriving DecidableEq, Repr

/-- CVT layout (R187). -/
structure CvtOps where
  tag : BitVec 4
  sf : BitVec 4
  df : BitVec 4
  sr : Bool
  width : BitVec 4
  ra : BitVec 5
  rb : BitVec 5
  rn : BitVec 5
  rk : BitVec 5
  rbs : BitVec 5
  rsv : BitVec 12
deriving DecidableEq, Repr

/-- SMP layout (R189). -/
structure SmpOps where
  rd : BitVec 5
  rs1 : BitVec 5
  rs2 : BitVec 5
  rs3 : BitVec 5
  km1 : BitVec 8
  rsv : BitVec 26
deriving DecidableEq, Repr

/-- SYS layout (R190). -/
structure SysOps where
  rd : BitVec 5
  rs : BitVec 5
  csr : BitVec 12
  rsv : BitVec 32
deriving DecidableEq, Repr

/-- LMV and LMVA layout (R204, R208). -/
structure LmvOps where
  tag : BitVec 4
  tk : BitVec 4
  lot : BitVec 4
  nm1 : BitVec 3
  ofmt : BitVec 2
  rs : BitVec 5
  rd : BitVec 5
  rsv : BitVec 27
deriving DecidableEq, Repr

/-- DMM layout (R204, R212). -/
structure DmmOps where
  tag : BitVec 4
  tk : BitVec 4
  tf : BitVec 4
  xf : BitVec 4
  nm1 : BitVec 4
  km1 : BitVec 4
  chain : Bool
  write : Bool
  wf : Bool
  raw : Bool
  rt : BitVec 5
  rx : BitVec 5
  rd : BitVec 5
  rsv : BitVec 11
deriving DecidableEq, Repr

/-- DMG layout (R204, R214). -/
structure DmgOps where
  tag : BitVec 4
  tk : BitVec 4
  enter : Bool
  exit : Bool
  rb : BitVec 5
  rsv : BitVec 7
  g2 : BitVec 32
deriving DecidableEq, Repr

/-- ATS layout (R204, R215). -/
structure AtsOps where
  tag : BitVec 4
  tk : BitVec 4
  gm1 : BitVec 4
  nvm1 : BitVec 8
  rq : BitVec 5
  rp : BitVec 5
  rd : BitVec 5
  rsv : BitVec 19
deriving DecidableEq, Repr

/-- ATV layout (R204, R215). -/
structure AtvOps where
  tag : BitVec 4
  tk : BitVec 4
  rsvHi : BitVec 1
  gm1 : BitVec 3
  nvm1 : BitVec 8
  rw : BitVec 5
  rp : BitVec 5
  rd : BitVec 5
  pf : BitVec 4
  chain : Bool
  write : Bool
  rsv : BitVec 13
deriving DecidableEq, Repr

/-- ATX layout (R204, R215). -/
structure AtxOps where
  tag : BitVec 4
  tk : BitVec 4
  gm1 : BitVec 4
  rsvHi : BitVec 8
  rq : BitVec 5
  rs : BitVec 5
  rd : BitVec 5
  rn : BitVec 5
  rsv : BitVec 14
deriving DecidableEq, Repr

/-- KAP layout (R204, R215). -/
structure KapOps where
  tag : BitVec 4
  tk : BitVec 4
  kind : Bool
  rsvHi : BitVec 11
  rs : BitVec 5
  ra : BitVec 5
  rsv : BitVec 24
deriving DecidableEq, Repr

/-- LDQ and STQ layout (R204, R225). -/
structure QueOps where
  tag : BitVec 4
  tk : BitVec 4
  raw : Bool
  cm1 : BitVec 12
  ra : BitVec 5
  rs : BitVec 5
  rsv : BitVec 23
deriving DecidableEq, Repr

/-- WAITQ layout (R204, R228). -/
structure WaitOps where
  tag : BitVec 4
  tk : BitVec 4
  mask : BitVec 16
  rsv : BitVec 30
deriving DecidableEq, Repr

/-- SND layout (R204, R229). -/
structure SndOps where
  tag : BitVec 4
  tk : BitVec 4
  plan : Bool
  raw : Bool
  cm1 : BitVec 12
  ch : BitVec 6
  rs : BitVec 5
  rt : BitVec 5
  rsv : BitVec 16
deriving DecidableEq, Repr

/-- RCV layout (R204, R229). -/
structure RcvOps where
  tag : BitVec 4
  tk : BitVec 4
  rsvHi : BitVec 1
  raw : Bool
  cm1 : BitVec 12
  ch : BitVec 6
  rd : BitVec 5
  rt : BitVec 5
  rsv : BitVec 16
deriving DecidableEq, Repr

/-- MCS layout (R204, R229). -/
structure McsOps where
  tag : BitVec 4
  tk : BitVec 4
  rsvHi : BitVec 1
  raw : Bool
  cm1 : BitVec 12
  ch : BitVec 6
  rs : BitVec 5
  tree : BitVec 8
  rsv : BitVec 13
deriving DecidableEq, Repr

/-- HINT layout (R204, R233). -/
structure HintOps where
  rsvHi : BitVec 8
  draw : BitVec 12
  dur : BitVec 16
  rsv : BitVec 18
deriving DecidableEq, Repr

/-! ### Operands that come over a connector -/

/-- What a management command carries beside its operands: transaction and source of the message (R615), the version it
came in, whether a management port took it, the port, and the authentication trailer of R576; with it, whether a write of the counter
floor to the module flash would succeed (R593). -/
structure MgmtHdr where
  xid : BitVec 64
  src : Nat
  v1 : Bool
  onMgmt : Bool
  ctr : BitVec 64
  rsv : BitVec 64
  tag : BitVec 256
  flashOk : Bool := true
deriving DecidableEq, Repr

/-- The header of an Avenue v2 message but for VT, whose VERSION is 2 and whose TYPE is the command's (R432). -/
structure AveHdr where
  nrec : BitVec 8
  chm : BitVec 8
  tp : BitVec 8
  srcE : BitVec 16
  dstE : BitVec 16
  srcP : BitVec 16
  dstP : BitVec 16
  fseq : BitVec 32
  aux : BitVec 32
  mseq : BitVec 32
  aux2 : BitVec 32
deriving DecidableEq, Repr

/-- One Avenue v2 message as it comes in: the engine link (R424) or management port it came on, its encapsulation
(R431), header, HCRC, and the record bytes that follow the header. -/
structure AveIn where
  link : Nat
  onMgmt : Bool
  roce : Bool
  hdr : AveHdr
  hcrc : BitVec 32
  body : List Byte
  oddType : Bool := false
  flashOk : Bool := true
deriving DecidableEq, Repr

/-- One Avenue v1 message (R439): TYPE, LENGTH, engines, sequence number, the CRC of its header and the body bytes. -/
structure AveV1In where
  onMgmt : Bool
  src : Nat
  typ : BitVec 4
  rsv : BitVec 8
  length : BitVec 16
  srcE : BitVec 16
  dstE : BitVec 16
  seq : BitVec 32
  crc : BitVec 32
  body : List Byte
  flashOk : Bool := true
deriving DecidableEq, Repr

/-- Where a warden command comes from (R26): the registry, a takeover action of a neighbouring warden, or elsewhere. -/
inductive CmdSource where
  | registry | takeover | other
deriving DecidableEq, Repr

/-- One temperature reading: tenths of a degree, or wires that read open or shorted (R505). -/
inductive Reading where
  | value (tenths : Int)
  | failed
deriving DecidableEq, Repr, Inhabited

/-- The readings of one kind of sensor at a district's four sites (R504). -/
structure SiteReadings where
  s0 : Reading
  s1 : Reading
  s2 : Reading
  s3 : Reading
deriving DecidableEq, Repr, Inhabited

/-- The four readings of the coolant sensors, in hundredths of a degree (R509, R522). -/
structure CoolReadings where
  inA : Reading
  inB : Reading
  outA : Reading
  outB : Reading
deriving DecidableEq, Repr, Inhabited

/-- A pair of sensors: a district's site, or the coolant pair at the IN or the OUT port (R504, R509). -/
inductive SensorPlace where
  | site (d : DistId) (k : Fin 4)
  | inPort
  | outPort
deriving DecidableEq, Repr

/-- The flow instruments (R509): the signed meter in tenths of a litre per minute, or failed; the switch closed, open
or failed. -/
structure FlowReadings where
  meter : Option Int
  switch : Option Bool
deriving DecidableEq, Repr, Inhabited

/-- One entry of the tenant table of MODEL_LOAD (R391). -/
structure TenantOp where
  ease : BitVec 8
  flags : BitVec 8
  maxReq : BitVec 16
  pages : BitVec 32
  rings : BitVec 128
  maxPins : BitVec 16
  rsv : BitVec 48
deriving DecidableEq, Repr, Inhabited

/-- The operands of MODEL_LOAD (R338, R617). -/
structure LoadOps where
  kind : BitVec 8
  slot : BitVec 8
  tenant : BitVec 8
  ordinal : BitVec 16
  next : BitVec 16
  deedDigest : BitVec 256
  envelope : List Byte
  tenants : List TenantOp
deriving DecidableEq, Repr

/-- The operands of FABRIC_SET_CONFIG (R426, R617). -/
structure FabricOps where
  engineId : BitVec 16
  encap : BitVec 8
  prio : BitVec 8
  domain : BitVec 8
  modes : List (BitVec 8)
  ipPrefix : BitVec 96
  qKey : BitVec 32
  ip0 : BitVec 128
  ip1 : BitVec 128
deriving DecidableEq, Repr

/-- The operands of RING_BIND (R443, R617). -/
structure BindOps where
  ring : BitVec 8
  mtu : BitVec 8
  clientQpn : BitVec 32
  clientPsn : BitVec 32
  enginePsn : BitVec 32
  clientIp : BitVec 128
deriving DecidableEq, Repr

/-- What PTP brings (R447): the offset a Sync exchange measured, in ns, and the port it was taken on (0 to 17). -/
structure PtpOps where
  offset : Int
  port : Nat
deriving DecidableEq, Repr

/-- An RDMA packet of a client: the request ring of its connection, and whether it is ECN-marked (R443, R445). -/
structure RcPkt where
  ring : Fin 128
  ecn : Bool := false
deriving DecidableEq, Repr

/-- The outcome of programming one lot as the read-back shows it (R347, R349): the sites whose cells could not be
placed, with the levels they read back at. Row and column are physical (0 to 1,039 and 0 to 1,055). -/
structure SiteFail where
  row : Nat
  col : Nat
  lp : BitVec 3
  ln : BitVec 3
deriving DecidableEq, Repr

/-- What a lot traverse measures (R530): each column's trim and fit, the sites beyond
their level, and the spread of Delta in quarter LSB. Columns are read columns 0 to 1,039. -/
structure LotMeasure where
  gain : List (Nat × Int)
  offs : List (Nat × Int)
  rho0 : List (Nat × BitVec 16)
  beta0 : List (Nat × BitVec 16)
  fails : List SiteFail
  spread : Nat
deriving DecidableEq, Repr

/-- What a traverse finds (R525, R526): whether the benchmark cells agree (R523), lots, parcels, voltage codes, which of a site's sensors A
and B and which parcel sensors measure within range. `links` gives the failed data wires of the
ring-road links of a district, numbered 12 times the edge (N, S, E, W) plus the link's place on it (R261). -/
structure TravResult where
  benchOk : Bool
  lots : List (Pid × LotId × LotMeasure)
  parcels : List (Pid × Bool)
  vmin : List (Pid × BitVec 6 × BitVec 6 × BitVec 6 × BitVec 6)
  sensorsOk : List (Fin 4 × Bool × Bool)
  parcelSensors : List (Pid × Bool)
  padsOk : BitVec 16
  links : List (Fin 48 × Nat)
  internalOk : Bool
  eyes : List (BitVec 8)
  flashOk : Bool
deriving DecidableEq, Repr

/-- The tokens a STEP_DONE message carries: for each SAMPLE row its number and the token sampled (R406). -/
structure StepDoneBody where
  toks : List (Nat × Nat)
deriving DecidableEq, Repr

/-- The commands of the block, one for each row of the opcode table. -/
inductive Instr where
  /- power-on and boot -/
  | powerOn (vin : Nat) (sealOk : Bool)
  | inputRemoved
  | overvoltage
  | undervolt (vin : Nat)
  | reversedPolarity
  | fastLimit (iin : Nat)
  | strapChange (air : Bool)
  | bootFlowEstablished (probeFail fwBad announced : List DistId)
  | bootFlowTimeout
  | electionWindowClose
  | bootStep5End (late : List DistId)
  | bootComplete (parcelFail : List Pid) (benchBad : List DistId) (stacksFailed : List StackId)
  | bootStatus
  | engineReset (m : MgmtHdr)
  /- registry, deputy, wardens -/
  | registryHeartbeat
  | registryTakeover (reported : Bool)
  | deputySnapshotDone
  | deputyLost
  | deputyAck (record : Nat)
  | wardenCommand (d : DistId) (source : CmdSource) (epoch : BitVec 32)
  | wardenHeartbeat (d : DistId)
  | wardenLost (d : DistId) (coreFailed : Bool)
  | stop (p : Pid)
  | resume (p : Pid)
  | bollard (p : Pid) (event : BitVec 16)
  | wardenSetRation (p : Pid) (v : Word)
  | setVoltage (p : Pid) (code : BitVec 6)
  | lotMapWrite (p : Pid) (hi : Bool) (v : Word)
  | lotMapArm (p : Pid) (arm : Bool)
  | lotMapBadClear (p : Pid)
  | lotRemapWrite (p : Pid) (l : LotId) (col : Bool) (n : Fin 4) (v : Word)
  | cpCfgWrite (p : Pid) (l : LotId) (v : Word)
  | dmeExcClear (p : Pid)
  | swpExcClear (p : Pid)
  | suspectClear (d : DistId) (bits : BitVec 16)
  | paramWrite (p : Pid) (n : Fin 16) (v : Word)
  | classWrite (p : Pid) (n : Fin 4) (v : Word)
  | kvCfgWrite (p : Pid) (v : Word)
  | stackWindowWrite (p : Pid) (w : Fin 16) (r : Fin 3) (v : Word)
  | detourTableWrite (d : DistId) (n : Fin 102) (v : Word)
  | easeWrite (hi : Bool) (v : Word)
  | counterReadClear (addr : Nat)
  | misalignedAccess (addr : Nat) (bytes : Nat) (write : Bool)
  | unbackedAccess (addr : Nat) (write : Bool)
  | registerWrite (addr : Nat) (v : Word)
  /- sweeper: ALU, IMM, MEM, BR -/
  | add (p : Pid) (o : AluOps)
  | sub (p : Pid) (o : AluOps)
  | and (p : Pid) (o : AluOps)
  | or (p : Pid) (o : AluOps)
  | xor (p : Pid) (o : AluOps)
  | sll (p : Pid) (o : AluOps)
  | srl (p : Pid) (o : AluOps)
  | sra (p : Pid) (o : AluOps)
  | slt (p : Pid) (o : AluOps)
  | sltu (p : Pid) (o : AluOps)
  | min (p : Pid) (o : AluOps)
  | max (p : Pid) (o : AluOps)
  | mul (p : Pid) (o : AluOps)
  | mulh (p : Pid) (o : AluOps)
  | div (p : Pid) (o : AluOps)
  | divu (p : Pid) (o : AluOps)
  | rem (p : Pid) (o : AluOps)
  | remu (p : Pid) (o : AluOps)
  | clz (p : Pid) (o : AluOps)
  | popc (p : Pid) (o : AluOps)
  | li (p : Pid) (o : ImmOps)
  | lhi (p : Pid) (o : ImmOps)
  | ld8s (p : Pid) (o : MemOps)
  | ld8u (p : Pid) (o : MemOps)
  | ld16s (p : Pid) (o : MemOps)
  | ld16u (p : Pid) (o : MemOps)
  | ld32s (p : Pid) (o : MemOps)
  | ld32u (p : Pid) (o : MemOps)
  | ld64 (p : Pid) (o : MemOps)
  | st8 (p : Pid) (o : MemOps)
  | st16 (p : Pid) (o : MemOps)
  | st32 (p : Pid) (o : MemOps)
  | st64 (p : Pid) (o : MemOps)
  | vld (p : Pid) (o : MemOps)
  | vst (p : Pid) (o : MemOps)
  | beq (p : Pid) (o : BrOps)
  | bne (p : Pid) (o : BrOps)
  | blt (p : Pid) (o : BrOps)
  | bge (p : Pid) (o : BrOps)
  | bltu (p : Pid) (o : BrOps)
  | bgeu (p : Pid) (o : BrOps)
  | jal (p : Pid) (o : BrOps)
  | jalr (p : Pid) (o : BrOps)
  /- sweeper: VEC, CVT, SMP, SYS -/
  | vadd (p : Pid) (o : VecOps)
  | vsub (p : Pid) (o : VecOps)
  | vmul (p : Pid) (o : VecOps)
  | vmin (p : Pid) (o : VecOps)
  | vmax (p : Pid) (o : VecOps)
  | vdiv (p : Pid) (o : VecOps)
  | vfma (p : Pid) (o : VecOps)
  | vexp (p : Pid) (o : VecOps)
  | vsqrt (p : Pid) (o : VecOps)
  | vrmax (p : Pid) (o : VecOps)
  | vrsum (p : Pid) (o : VecOps)
  | vmov (p : Pid) (o : VecOps)
  | cvt (p : Pid) (o : CvtOps)
  | smax (p : Pid) (o : SmpOps)
  | stopk (p : Pid) (o : SmpOps)
  | scum (p : Pid) (o : SmpOps)
  | sword (p : Pid) (o : SmpOps)
  | spen (p : Pid) (o : SmpOps)
  | nop (p : Pid) (o : SysOps)
  | csrr (p : Pid) (o : SysOps)
  | csrw (p : Pid) (o : SysOps)
  | evwait (p : Pid) (o : SysOps)
  | evpop (p : Pid) (o : SysOps)
  | evpost (p : Pid) (o : SysOps)
  | fence (p : Pid) (o : SysOps)
  | fret (p : Pid) (o : SysOps)
  | firmwareEventTake (p : Pid)
  /- lots -/
  | lmv (p : Pid) (o : LmvOps)
  | lmva (p : Pid) (o : LmvOps)
  | stagingFill (p : Pid)
  | lmvStart (p : Pid) (l : LotId) (disturb : List (Nat × Nat × Int))
  | lmvDrain (p : Pid)
  | flagLimitReport (p : Pid) (l : LotId)
  | driftFit (p : Pid) (l : LotId) (j : Fin 8)
  | recomputeRoutine (p : Pid)
  /- DME -/
  | dmm (p : Pid) (o : DmmOps)
  | dmg (p : Pid) (o : DmgOps)
  | ats (p : Pid) (o : AtsOps)
  | atv (p : Pid) (o : AtvOps)
  | atx (p : Pid) (o : AtxOps)
  | tileFetch (p : Pid)
  | opqFill (p : Pid)
  | dmeDispatch (p : Pid)
  | dmmCompute (p : Pid)
  /- KV append path -/
  | kap (p : Pid) (o : KapOps)
  | kapSend (p : Pid)
  | appendAccept (p : Pid) (flit : Nat)
  | kapAck (p : Pid) (flit : Nat)
  /- load and store queues, stacks -/
  | ldq (p : Pid) (o : QueOps)
  | stq (p : Pid) (o : QueOps)
  | ldqRun (p : Pid)
  | stqRun (p : Pid)
  | stackReadRequest (k : StackId) (flit : Nat) (erased : List StackId)
  | stackReadResponse (p : Pid) (flit : Nat)
  | stackWrite (k : StackId) (flit : Nat)
  | ackCount (p : Pid) (flit : Nat)
  | poolCreditReturn (p : Pid) (k : StackId)
  | waitq (p : Pid) (o : WaitOps)
  /- lanes -/
  | snd (p : Pid) (o : SndOps)
  | rcv (p : Pid) (o : RcvOps)
  | mcs (p : Pid) (o : McsOps)
  | hint (p : Pid) (o : HintOps)
  | hintExpiry (p : Pid)
  | sndStart (p : Pid)
  | rcvPost (p : Pid)
  | recordReceive (p : Pid) (flit : Nat)
  | flitArrival (flit : Nat) (uncorrectable : Bool)
  | frameBoundary
  | holeSense (d : DistId)
  /- passes and the KV cache -/
  | passStart (p : Pid) (payload : BitVec 56)
  | kvPlan (p : Pid) (step : BitVec 32)
  | summaryReceive (p : Pid) (flit : Nat)
  /- RDMA and serving -/
  | rdmaWrite (pkt : RcPkt) (off : Nat) (bytes : List Byte)
  | rdmaRead (pkt : RcPkt) (off len : Nat)
  | unsupportedRdmaOp (ring : Fin 128)
  | rcRetryExhausted (ring : Fin 128)
  | cnpReceive (ring : Fin 128)
  | rateRecovery (ring : Fin 128)
  | admission
  | cancelScan
  | waitingDeadline
  | stepSend
  | sample (step : BitVec 32)
  | stepDoneSend (step : BitVec 32)
  | commitDecision (step : BitVec 32)
  | commit (step : BitVec 32)
  | commitApply (step : BitVec 32)
  | stepReplay (step : BitVec 32)
  | stepAbandon (step : BitVec 32)
  | drainLimitExpiry
  /- Avenue and links -/
  | dataMessage (m : AveIn)
  | ack (m : AveIn)
  | ackSend (peer : BitVec 14)
  | load (m : AveIn)
  | loadTimeout
  | step (m : AveIn)
  | stepDone (m : AveIn) (b : StepDoneBody)
  | commitMessage (m : AveIn) (lens : List (Nat × Nat))
  | mgmt (m : AveIn) (src : Nat)
  | reassemblyTimeout (xid : BitVec 64) (src : Nat)
  | probe (m : AveIn)
  | avenueV1Message (m : AveV1In)
  | messageClose (port : PortId)
  | retransmit (peer : BitVec 14) (mseq : BitVec 32)
  | pauseSpill (port : PortId)
  | linkDown (link : Fin 128)
  | linkUp (link : Fin 128) (pol : BitVec 8) (eyes : List (BitVec 8))
  | portLost (port : PortId)
  | transceiverInsert (port : PortId) (laneBad : BitVec 8)
  | eyeMeasure (port : PortId) (eyes : List (BitVec 8))
  | ptpMessage (o : PtpOps)
  | ptpSyncLoss
  /- power -/
  | meterWindow (p : Pid) (avg : Nat)
  | capLoop (p1ms pmax vin iin : Nat)
  | energySample (vin iin : Nat)
  | feederTrip (d : DistId)
  | phaseLost (p : Pid) (phase : Fin 5)
  | regulatorFault (p : Pid) (atLimit : Bool)
  | padCheck (d : DistId) (excess : List Int)
  /- host commands -/
  | engineSetState (m : MgmtHdr) (target : BitVec 8) (drainMs : BitVec 32)
  | districtSetState (m : MgmtHdr) (district target : BitVec 8)
  | switchOnTest (d : DistId) (probeOk : Bool)
  | switchOnTimeout (d : DistId)
  | reserveRelease (d : DistId)
  | switchOnComplete (d : DistId)
  | setClockMode (m : MgmtHdr) (district mode : BitVec 8)
  | setRation (m : MgmtHdr) (district : BitVec 8) (parcel ration : BitVec 16)
  | setCap (m : MgmtHdr) (cap : BitVec 32)
  | setValve (m : MgmtHdr) (setpoint port : BitVec 16) (dest : BitVec 128)
  | modelLoad (m : MgmtHdr) (o : LoadOps)
  | lotProgramStart (p : Pid) (l : LotId)
  | lotProgramDone (p : Pid) (l : LotId) (fails : List SiteFail)
  | loadDone
  | adapterPlace (slot : Fin 16)
  | modelUnload (m : MgmtHdr) (kind slot flags : BitVec 8)
  | layerSetResidency (m : MgmtHdr) (layer : BitVec 16) (mode : BitVec 8)
  | rewrite (p : Pid) (l : LotId)
  | backgroundBeat (p : Pid) (l : LotId)
  | traverse (m : MgmtHdr) (scope district : BitVec 8) (parcel : BitVec 16) (lot port : BitVec 8)
  | traverseDone (id : Nat) (r : TravResult)
  | residCheck (d : DistId)
  | prefixRelease (m : MgmtHdr) (handle : Word)
  | quote (m : MgmtHdr) (challenge : BitVec 256) (flags : BitVec 8)
  | fabricSetConfig (m : MgmtHdr) (o : FabricOps)
  | ringBind (m : MgmtHdr) (o : BindOps)
  | ownerSet (m : MgmtHdr) (key : BitVec 512)
  | mgmtKey (m : MgmtHdr) (cipher : List Byte) (signature : BitVec 512)
  | trustSet (m : MgmtHdr) (action : BitVec 8) (body : BitVec 512)
  | firmwareUpdate (m : MgmtHdr) (off : BitVec 32) (last : BitVec 8) (data : List Byte)
  | regRead (m : MgmtHdr) (addr : BitVec 64) (count : BitVec 16) (mode : BitVec 8)
  | firmwareRcSweep (d : Option DistId)
  /- clocks -/
  | refInputFail (ref1 : Bool)
  | refInputGood (ref1 : Bool)
  | nodeLock (d : DistId)
  | meshLockFail (d : DistId)
  | nodeFail (d : DistId)
  | portOscFail (port : PortId)
  /- thermal and coolant -/
  | sensorSample (d : DistId) (a b : SiteReadings) (parcels : List (Fin 144 × Reading))
  | thermalStep (d : DistId)
  | tempDisagree (place : SensorPlace) (disagree : Bool)
  | flowUpdate (f : FlowReadings) (t : CoolReadings)
  | flowNotice
  | flowFail
  | switchFail
  | coolantLost
  | coolantTrip
  | flowReturn
  | reversedFlow
  | reversedClear
  | inletRange (outside : Bool)
  | leak (open_ : Bool)
  | valveSat (saturated : Bool)
  | forecastCompute (avg1s rowsWaiting rowsRun edge : Nat)
  | forecastMessage
  /- stacks, spares, recovery -/
  | stackLost (k : StackId) (routeOnly : Bool)
  | scrub (addr : Nat) (bad : List StackId)
  | stackRebuildDone (k : StackId)
  | coverBringIn (d : DistId)
  | parcelReplaced (p : Pid)
  | districtRestored (d spare : DistId)
  /- test access port -/
  | bypass (tdi : Bool)
  | idcode
  | samplePreload (bits : List Bool)
  | extest
  | intest
  | tapChallenge
  | tapUnlock (cert sig : List Byte)
  | tapReset
  /- the rest of the table -/
  | districtTransitionEnd (d : DistId)
  | creditReturn (p : Pid) (outPort : Fin 5) (vc : Fin 6) (leg : Fin 4)
  | rcAck (ring : Fin 128) (psn : Nat) (fatalNak : Bool)
  | rcAckTimeout (ring : Fin 128)
  | remotePause (port : PortId) (pause : Bool)
deriving DecidableEq, Repr

end Sys2Proof
end

