-- ==== Sys2Proof/Decode.lean ====
section
/-!
DEFINITION. The command that a word of spec/opcode_table.json spells. Every row of the table has an empty list of fields:
no row gives bits, so no word spells a command. The encodings the manual does give, of Plat words and of management
messages, stand in Machine/Plat.lean and Machine/Message.lean.
-/
namespace Sys2Proof

/-- The command spelt by a word of `nbits` bits: none, since no row of the table gives bits. -/
def decodeTableWord (_nbits _w : Nat) : Option Instr := none

end Sys2Proof
end

