-- ==== Sys2Proof/Config.lean ====
section
/-!
DEFINITION. What an implementation fixes and the manual does not: opaque constants, about which nothing can be proved.
Each is named in the assumption log.
-/
namespace Sys2Proof.Config

/-- What the sweeper reads from a vector register the firmware bank does not have (R170 gives it fv0 and fv1 only). -/
opaque fwVector : Nat → VReg

/-- What the sweeper reads where an SRAM word is uncorrectable (R198), by offset. -/
opaque badWord : Nat → Word

/-- What a VLD reads where an SRAM word is uncorrectable, by offset. -/
opaque badVector : Nat → VReg

/-- Where the firmware store holds the routine of a firmware event (R170, R171, R192 give no entry points). -/
opaque fwEntry : Word → Nat

/-- The kind of a 32-bit G2 GRID word: 0 GLD, 1 GFL, 2 GDR, 3 GRT, 4 GSY, 5 GWT, 6 GHI, above that no G2 instruction. The format of
the word is not in the manual (R129, R214). -/
opaque g2Kind : BitVec 32 → Nat

/-- The format code of the operands that a GLD or GFL names (R129). -/
opaque g2Format : BitVec 32 → Nat

/-- The vectors that a GFL flows. -/
opaque g2Vectors : BitVec 32 → Nat

/-- Whether a GFL adds to the partial sums that the grid holds, rather than to zero. -/
opaque g2Adds : BitVec 32 → Bool

/-- The byte offset from the DMG's base of element k that a word reads or writes (R214): of cell k for GLD, of element 64 v + i of
vector v for GFL, of the result of column j of vector v, k = 64 v + j, for GDR. -/
opaque g2Place : BitVec 32 → Nat → Nat

/-- What a GRT does: a transposition (none), or a rotation by rows and columns (R129). -/
opaque g2Turn : BitVec 32 → Option (Nat × Nat)

/-- The grid cycles that a word takes on the G2 (R131). -/
opaque g2Cycles : BitVec 32 → Nat

/-- The tenant a unit writes into the header of its flits (R263), from the flit's number: the manual does not say how a
parcel knows it. -/
opaque flitTenant : Nat → Nat

/-- The model's KV head indices that come before the first of a head group (`k` = 0), or between its heads `k` − 1 and `k`; the group is
named by its first logical parcel (R302: the compiler assigns them; nothing says how the engine learns them). -/
opaque kvHead : Nat → Nat → BitVec 12

/-- STEP of an output entry that no step commits (R397 names the committing step's number; an immediate completion has
none), by the number of entries written so far. -/
opaque noStep : Nat → Nat

/-- The engine ID of an ordinal of the group that is neither this engine's nor its NEXT: the manual does not say how the
registry learns it (R245, R436, R440). -/
opaque groupEngine : Nat → BitVec 14

/-- The slot of the prefix from which the owner of a step opened one of its slots, by step number and slot (R327: nothing of what another
engine of the group is sent says it). -/
opaque openedFrom : Nat → Nat → Nat

/-- The link of another engine that the messages to it on one of this engine's links are addressed to (R428 gives each link addresses of its
own, R437 does not say which of a destination's is taken). -/
opaque destLink : Nat → Nat → BitVec 7

/-- What a port block writes into its spill area for the frames it holds (R294, R382: the layout is not in the manual). -/
opaque portSpill : Nat → List (List Byte) → List Byte

/-- The check field of a prefix handle: engine ID, bits 63:19, token IDs, adapter slot, secret (R418: SM3 over them; how they
are laid out in bytes is not in the manual). -/
opaque handleCheck : Nat → Nat → List Nat → Nat → BitVec 256 → BitVec 19

/-- The candidate of a tree node: step, row, node, vocabulary size (R416: how the logits of the extra heads reach the
sampling firmware is not in the manual). -/
opaque candidate : Nat → Nat → Nat → Nat → Nat

/-- The body of a STEP_DONE message: step, and the tokens of its sample rows (R406 names what it carries, not its form). -/
opaque stepDoneBody : Nat → List (Nat × Nat) → List (BitVec 8)

/-- The body of a COMMIT message: step, and each slot's new length (R406). -/
opaque commitBody : Nat → List (Nat × Nat) → List (BitVec 8)

/-- The token that firmware samples for a row of a step that another engine owns: step and row (the manual does not say how
the request's parameters reach the engine that samples). -/
opaque remoteToken : Nat → Nat → Nat

/-- The token where the sampling procedure reaches no index, its logits holding +∞ (R413 states none): from the seed and the
output index. -/
opaque noToken : BitVec 64 → Nat → Nat

/-- The identity key, an SM2 private key, of the module with a serial (R570). -/
opaque identityKey : BitVec 64 → BitVec 256

/-- The public key of a firmware signer's certificate where it chains to an unrevoked root and carries the usage (R584: the
certificates are not in the manual). -/
opaque signerKey : List Byte → Option (List Byte)

/-- The header of the bundle that a slot holds from manufacture (its bytes are not in the manual). -/
opaque factoryHeader : List Byte

/-- The sweeper firmware of the bundle that a slot holds from manufacture. -/
opaque factoryStore : List Byte

/-- The code (0 to 14 for −7 to +7) that a recompute routine finds in place of a weight whose record did not arrive whole, by the
record's stack address and the weight's place in it (R101, R151). -/
opaque staleWeight : Nat → Nat → Fin 15

/-- The engine's QPN of an RC connection, by the bindings made so far (R443 states none). -/
opaque ringQpn : Nat → BitVec 24

/-- The rkey of a ring, by the bindings made so far (R443 states none). -/
opaque ringRkey : Nat → BitVec 32

/-- The stroke that the valve controller commands while the valve is neither fully open nor held closed (R511: it has no fixed
relation to flow). -/
opaque valveStroke : Nat → Fin 101

/-- Where in the system region below the fault log the registry keeps log record `n`, in records of 72 bytes (R36, R344: the layout of
the checkpoint region is not in the manual; log 60). -/
opaque ckptSlot : Nat → Fin 14913080

/-- What a log record of the registry holds (R35; log 60). -/
opaque logBody : Nat → BitVec 512

/-- The random number with which an SM2 signature of the identity key is made, by the signatures made so far (R588). -/
opaque signRandom : Nat → BitVec 256

/-- The identity and device CA certificates of the module with a serial (R573). -/
opaque identityCerts : BitVec 64 → List Byte

/-- The TAP's 32-bit identification code (R586 gives none). -/
opaque idcode : BitVec 32

/-- What pin `i` of the boundary register captures at a sample (R586 gives no pin list), by the samples taken so far. -/
opaque pin : Nat → Nat → Bool

/-- The random 32 bytes of a debug challenge (R587), by the challenges drawn so far. -/
opaque challenge : Nat → BitVec 256

/-- The public key of a debug certificate that chains to a root (R587: the certificates are not in the manual). -/
opaque debugKey : List Byte → Option (List Byte)

/-- The value drawn at the n-th load of a base model (R418). -/
opaque loadSecret : Nat → BitVec 256

end Sys2Proof.Config
end

