-- ==== Sys2Proof/Machine/Num.lean ====
section
/-!
DEFINITION. Exact numbers and correctly rounded binary32 arithmetic (R138, R155, R156, R186, R640).

A value is a NaN, an infinity, or an exact signed dyadic number. Every operation computes the exact result and rounds
once; a quotient, a root or an exponential is held to more bits than binary32 keeps, with a sticky bit for the rest.
-/
namespace Sys2Proof.Machine

/-- A value: NaN, an infinity, or plus or minus `m` times two to the `e`. Zero keeps its sign. -/
inductive Val where
  | nan
  | inf (neg : Bool)
  | fin (neg : Bool) (m : Nat) (e : Int)
deriving DecidableEq, Repr, Inhabited

/-- What rounding and decoding count (R163), to be added to a tag's counters. -/
structure Ev where
  sat : Nat := 0
  zero : Nat := 0
  invalid : Nat := 0
  nanOut : Nat := 0
deriving DecidableEq, Repr, Inhabited

/-- Events of two operations together. -/
def Ev.plus (a b : Ev) : Ev :=
  { sat := a.sat + b.sat, zero := a.zero + b.zero, invalid := a.invalid + b.invalid, nanOut := a.nanOut + b.nanOut }

/-- `2 ^ e` for an exponent that is at least 0; 1 below. -/
def pow2 (e : Int) : Nat := 2 ^ e.toNat

/-- The integer `k`. -/
def Val.ofInt (k : Int) : Val := .fin (decide (k < 0)) k.natAbs 0

/-- The natural magnitude of `m * 2 ^ e` on the grid `2 ^ g`, rounded to nearest even; `st` says that the exact value is
a little larger than `m * 2 ^ e`, by less than one unit of `m`. -/
def roundGrid (m : Nat) (e g : Int) (st : Bool) : Nat :=
  if g ≤ e then m * pow2 (e - g)
  else
    let k := (g - e).toNat
    let lo := m >>> k
    let rem := m % 2 ^ k
    let half := 2 ^ (k - 1)
    if rem > half || (rem == half && (st || lo % 2 == 1)) then lo + 1 else lo

/-- The exponent of the leading bit of `m * 2 ^ e`. -/
def leadExp (m : Nat) (e : Int) : Int := e + (Nat.log2 m : Nat)

/-! ### binary32 (R138) -/

/-- The quiet NaN the engine writes. -/
def qnan : F32 := 0x7FC00000#32

/-- An infinity of sign `neg`. -/
def f32Inf (neg : Bool) : F32 := if neg then 0xFF800000#32 else 0x7F800000#32

/-- A zero of sign `neg`. -/
def f32Zero (neg : Bool) : F32 := if neg then 0x80000000#32 else 0#32

/-- The exact value of a binary32 code. -/
def Val.ofF32 (b : F32) : Val :=
  let n := b.toNat
  let s := decide (n ≥ 2 ^ 31)
  let ex : Nat := n / 2 ^ 23 % 256
  let f := n % 2 ^ 23
  if ex = 255 then (if f = 0 then .inf s else .nan)
  else if ex = 0 then .fin s f (-149)
  else .fin s (f + 2 ^ 23) ((ex : Int) - 150)

/-- The code of `q * 2 ^ g`, where `q` has at most 24 bits or is 2 to the 24 and `g` is at least −149; an infinity when
it lies beyond the format. -/
def f32Pack (neg : Bool) (q : Nat) (g : Int) : F32 :=
  let sgn := if neg then 2 ^ 31 else 0
  if q = 0 then f32Zero neg
  else if q < 2 ^ 23 then BitVec.ofNat 32 (sgn + q)
  else
    let (q', g') := if q = 2 ^ 24 then (2 ^ 23, g + 1) else (q, g)
    let ex := g' + 150
    if ex ≥ 255 then f32Inf neg
    else BitVec.ofNat 32 (sgn + ex.toNat * 2 ^ 23 + (q' - 2 ^ 23))

/-- `m * 2 ^ e`, with sticky bit `st`, rounded to nearest even binary32. -/
def f32Round (neg : Bool) (m : Nat) (e : Int) (st : Bool) : F32 :=
  if m = 0 then f32Zero neg
  else
    let g := max (leadExp m e - 23) (-149)
    f32Pack neg (roundGrid m e g st) g

/-- Whether a code is a NaN. -/
def f32IsNan (b : F32) : Bool := b.toNat % 2 ^ 31 > 0x7F800000

/-- Whether a code is an infinity. -/
def f32IsInf (b : F32) : Bool := b.toNat % 2 ^ 31 == 0x7F800000

/-- Whether a code is a zero. -/
def f32IsZero (b : F32) : Bool := b.toNat % 2 ^ 31 == 0

/-- A value rounded to binary32. -/
def Val.toF32 : Val → F32
  | .nan => qnan
  | .inf n => f32Inf n
  | .fin n m e => f32Round n m e false

/-- A value rounded to binary32, with what that counts under R156 and R163: SAT for an overflow of a finite value, ZERO
for a nonzero value that becomes zero. -/
def Val.toF32Ev (v : Val) : F32 × Ev :=
  let r := v.toF32
  match v with
  | .fin _ m _ => (r, { sat := if f32IsInf r then 1 else 0, zero := if m ≠ 0 && f32IsZero r then 1 else 0 })
  | _ => (r, {})

/-- Exact negation. -/
def Val.neg : Val → Val
  | .nan => .nan
  | .inf n => .inf (!n)
  | .fin n m e => .fin (!n) m e

/-- Signed integer of a magnitude. -/
def signed (neg : Bool) (m : Nat) : Int := if neg then -(m : Int) else m

/-- Exact sum; an exact cancellation gives +0, two negative zeros give −0. -/
def Val.add : Val → Val → Val
  | .nan, _ => .nan
  | _, .nan => .nan
  | .inf a, .inf b => if a = b then .inf a else .nan
  | .inf a, .fin _ _ _ => .inf a
  | .fin _ _ _, .inf b => .inf b
  | .fin a m e, .fin b n f =>
    let g := min e f
    let s := signed a (m * pow2 (e - g)) + signed b (n * pow2 (f - g))
    if s = 0 then .fin (a && b) 0 0 else .fin (decide (s < 0)) s.natAbs g

/-- Exact product; an infinity times a zero is a NaN. -/
def Val.mul : Val → Val → Val
  | .nan, _ => .nan
  | _, .nan => .nan
  | .inf a, .inf b => .inf (a != b)
  | .inf a, .fin b m _ => if m = 0 then .nan else .inf (a != b)
  | .fin a m _, .inf b => if m = 0 then .nan else .inf (a != b)
  | .fin a m e, .fin b n f => .fin (a != b) (m * n) (e + f)

/-- The value times two to the `k`. -/
def Val.scale (k : Int) : Val → Val
  | .fin a m e => .fin a m (e + k)
  | v => v

/-- Whether the value is a NaN. -/
def Val.isNan : Val → Bool
  | .nan => true
  | _ => false

/-- Whether the value is an infinity. -/
def Val.isInf : Val → Bool
  | .inf _ => true
  | _ => false

/-- Correctly rounded binary32 sum. -/
def f32Add (a b : F32) : F32 := ((Val.ofF32 a).add (Val.ofF32 b)).toF32

/-- Correctly rounded binary32 difference. -/
def f32Sub (a b : F32) : F32 := ((Val.ofF32 a).add (Val.ofF32 b).neg).toF32

/-- Correctly rounded binary32 product. -/
def f32Mul (a b : F32) : F32 := ((Val.ofF32 a).mul (Val.ofF32 b)).toF32

/-- `c + a * b`, rounded once. -/
def f32Fma (c a b : F32) : F32 := (((Val.ofF32 a).mul (Val.ofF32 b)).add (Val.ofF32 c)).toF32

/-- Correctly rounded binary32 quotient (R186). -/
def f32Div (a b : F32) : F32 :=
  match Val.ofF32 a, Val.ofF32 b with
  | .nan, _ => qnan
  | _, .nan => qnan
  | .inf _, .inf _ => qnan
  | .inf s, .fin t _ _ => f32Inf (s != t)
  | .fin s _ _, .inf t => f32Zero (s != t)
  | .fin s m e, .fin t n f =>
    if n = 0 then (if m = 0 then qnan else f32Inf (s != t))
    else
      let k := Nat.log2 n + 32
      let x := m * 2 ^ k
      f32Round (s != t) (x / n) (e - f - (k : Nat)) (decide (x % n ≠ 0))

/-- The integer square root of `n`, found bit by bit from bit `b` down. -/
def isqrt (n : Nat) : Nat → Nat → Nat
  | 0, r => if (r + 1) * (r + 1) ≤ n then r + 1 else r
  | b + 1, r => isqrt n b (if (r + 2 ^ (b + 1)) * (r + 2 ^ (b + 1)) ≤ n then r + 2 ^ (b + 1) else r)

/-- Correctly rounded binary32 square root (R186). -/
def f32Sqrt (a : F32) : F32 :=
  match Val.ofF32 a with
  | .nan => qnan
  | .inf s => if s then qnan else f32Inf false
  | .fin s m e =>
    if m = 0 then f32Zero s
    else if s then qnan
    else
      let odd : Int := e % 2
      let x := m * 2 ^ 64 * pow2 odd
      let r := isqrt x 48 0
      f32Round false r ((e - odd) / 2 - 32) (decide (r * r ≠ x))

/-- The natural logarithm of 2 times two to the 192, rounded down. -/
def ln2Fix : Nat := 4350955369971217654477563090224794165364344896676135745069

/-- `sum + t + t r / (k) + ...` in fixed point with 192 fraction bits, `n` terms. -/
def expTerms (r : Nat) : Nat → Nat → Nat → Nat → Nat
  | 0, _, _, sum => sum
  | n + 1, k, t, sum => expTerms r n (k + 1) (t * r / 2 ^ 192 / k) (sum + t)

/-- Correctly rounded binary32 exponential (R186). -/
def f32Exp (a : F32) : F32 :=
  match Val.ofF32 a with
  | .nan => qnan
  | .inf s => if s then f32Zero false else f32Inf false
  | .fin s m e =>
    if m = 0 then 0x3F800000#32
    else if leadExp m e ≥ 7 then (if s then f32Zero false else f32Inf false)
    else
      let x : Int := signed s (m * pow2 (e + 192))
      let k : Int := x / (ln2Fix : Int)
      let r := (x - k * (ln2Fix : Int)).toNat
      f32Round false (expTerms r 64 1 (2 ^ 192) 0) (k - 192) true

/-! ### Order (R186, R640) -/

/-- The place of a code that is no NaN in the order in which −0 lies below +0. -/
def f32Key (b : F32) : Int :=
  let n := b.toNat
  if n ≥ 2 ^ 31 then -((n - 2 ^ 31 : Nat) : Int) - 1 else n

/-- IEEE 754-2019 maximum. -/
def f32Max (a b : F32) : F32 :=
  if f32IsNan a || f32IsNan b then qnan else if f32Key a < f32Key b then b else a

/-- IEEE 754-2019 minimum. -/
def f32Min (a b : F32) : F32 :=
  if f32IsNan a || f32IsNan b then qnan else if f32Key b < f32Key a then b else a

/-- `a > b` as IEEE 754 compares: a NaN compares false, the zeros are equal. -/
def f32Gt (a b : F32) : Bool :=
  !f32IsNan a && !f32IsNan b && !(f32IsZero a && f32IsZero b) && decide (f32Key b < f32Key a)

/-- `a >= b` as IEEE 754 compares. -/
def f32Ge (a b : F32) : Bool :=
  !f32IsNan a && !f32IsNan b && ((f32IsZero a && f32IsZero b) || decide (f32Key b ≤ f32Key a))

/-! ### Rounding to integers (R156) -/

/-- The integer nearest to a finite value, ties to even. -/
def roundInt (neg : Bool) (m : Nat) (e : Int) : Int := signed neg (roundGrid m e 0 false)

/-- An integer clamped to the two's complement range of `n` bits. -/
def clampInt (n : Nat) (k : Int) : Int :=
  if k < -(2 ^ (n - 1) : Nat) then -(2 ^ (n - 1) : Nat)
  else if k > (2 ^ (n - 1) : Nat) - 1 then (2 ^ (n - 1) : Nat) - 1 else k

/-- A value converted to an INTn (R152, R156), with what it counts. `nanInv` is false where the NaN has already been
counted as an invalid element. -/
def Val.toIntEv (n : Nat) (nanInv : Bool) : Val → Int × Ev
  | .nan => (0, { invalid := if nanInv then 1 else 0 })
  | .inf s => (if s then -(2 ^ (n - 1) : Nat) else (2 ^ (n - 1) : Nat) - 1, { sat := 1 })
  | .fin s m e =>
    let k := roundInt s m e
    let c := clampInt n k
    (c, { sat := if c = k then 0 else 1, zero := if m ≠ 0 && k = 0 then 1 else 0 })

/-! ### BF16 (R139, R156) -/

/-- The exact value of a BF16 code. -/
def Val.ofBf16 (b : BitVec 16) : Val := Val.ofF32 (BitVec.ofNat 32 (b.toNat * 2 ^ 16))

/-- A BF16 operand of the DME: a subnormal is a zero of its sign and counts ZERO (R120, R152). -/
def bf16Flush (b : BitVec 16) : Val × Ev :=
  let n := b.toNat
  if n / 2 ^ 7 % 256 = 0 then (.fin (decide (n ≥ 2 ^ 15)) 0 0, { zero := if n % 2 ^ 7 = 0 then 0 else 1 })
  else (Val.ofBf16 b, {})

/-- A value rounded to BF16 (R156): below two to the −126 a zero of its sign. -/
def Val.toBf16Ev : Val → BitVec 16 × Ev
  | .nan => (0x7FC0#16, {})
  | .inf s => (if s then 0xFF80#16 else 0x7F80#16, {})
  | .fin s m e =>
    let sgn := if s then 2 ^ 15 else 0
    if m = 0 then (BitVec.ofNat 16 sgn, {})
    else
      let g := max (leadExp m e - 7) (-133)
      let q := roundGrid m e g false
      if q < 2 ^ 7 then (BitVec.ofNat 16 sgn, { zero := 1 })
      else
        let (q', g') := if q = 2 ^ 8 then (2 ^ 7, g + 1) else (q, g)
        let ex := g' + 134
        if ex ≥ 255 then (BitVec.ofNat 16 (sgn + 0x7F80), { sat := 1 })
        else (BitVec.ofNat 16 (sgn + ex.toNat * 2 ^ 7 + (q' - 2 ^ 7)), {})

end Sys2Proof.Machine
end

