-- ==== Sys2Proof/Machine/Formats.lean ====
section
/-!
DEFINITION. Number formats, packed bursts, stored records and conversions (05, R136 to R162, R637).

Element magnitudes of a block-scaled format are counted in the format's least step; the steps are powers of two. A code
of a format is its sign and the place of its magnitude in the rising list of the magnitudes the format has.
-/
namespace Sys2Proof.Machine

/-! ### Bytes -/

/-- The little-endian number of some bytes. -/
def leNat : List Byte → Nat
  | [] => 0
  | b :: bs => b.toNat + 256 * leNat bs

/-- `n` as `k` little-endian bytes. -/
def leBytes (n : Nat) : Nat → List Byte
  | 0 => []
  | k + 1 => BitVec.ofNat 8 n :: leBytes (n / 256) k

/-- The signed number of `k` bytes. -/
def leInt (bs : List Byte) : Int := (BitVec.ofNat (8 * bs.length) (leNat bs)).toInt

/-- An integer as `k` little-endian bytes, modulo two to the `8 k`. -/
def intBytes (x : Int) (k : Nat) : List Byte := leBytes (x % (2 ^ (8 * k) : Nat)).toNat k

/-- A list cut into pieces of `n`, at most `fuel` of them. -/
def chunks {α : Type} (n : Nat) : Nat → List α → List (List α)
  | 0, _ => []
  | _ + 1, [] => []
  | f + 1, l => l.take n :: chunks n f (l.drop n)

/-- The 32-bit words of some bytes. -/
def words32 (bs : List Byte) : List F32 := (chunks 4 (bs.length / 4) bs).map (fun c => BitVec.ofNat 32 (leNat c))

/-- The bytes of 32-bit words. -/
def bytes32 (ws : List F32) : List Byte := ws.flatMap (fun w => leBytes w.toNat 4)

/-! ### CRC-32C (R150) -/

/-- One bit of the reflected CRC. -/
def crcBit (c : Nat) : Nat := if c % 2 = 1 then Nat.xor (c / 2) 0x82F63B78 else c / 2

/-- One byte of the reflected CRC. -/
def crcByte (c : Nat) (b : Byte) : Nat :=
  crcBit (crcBit (crcBit (crcBit (crcBit (crcBit (crcBit (crcBit (Nat.xor c b.toNat))))))))

/-- The CRC-32C of some bytes (R150). -/
def crc32c (bs : List Byte) : Nat := Nat.xor (bs.foldl crcByte 0xFFFFFFFF) 0xFFFFFFFF

/-- The stored record of a 68-byte body (R149). -/
def storedRecord (body : List Byte) : List Byte := body ++ leBytes (crc32c body) 4

/-- The body of a raw record: scale word 0 and 64 payload bytes (R149). -/
def rawBody (payload : List Byte) : List Byte := leBytes 0 4 ++ payload

/-- Whether a 72-byte record passes its CRC check (R150, R151). -/
def recordOk (r : List Byte) : Bool := leNat (r.drop 68) == crc32c (r.take 68)

/-! ### The generator (R160) -/

/-- mix of R160. -/
def mix (z0 : Word) : Word :=
  let z := z0 ^^^ (z0 >>> 31)
  let z := z * 0x9E6F1D4B3C25A7E1#64
  let z := z ^^^ (z >>> 29)
  let z := z * 0xC3A56E19B74D2F0B#64
  z ^^^ (z >>> 32)

/-- word of R160. -/
def rndWord (key ctr : Word) : Word := mix (mix ctr ^^^ key)

/-- rnd16 of R160. -/
def rnd16 (key base : Word) (k : Nat) : Nat :=
  (rndWord key (base + BitVec.ofNat 64 (k / 4))).toNat / 2 ^ (16 * (k % 4)) % 65536

/-! ### Format table (R136, R142, R143) -/

/-- Codes 12 to 15 are reserved. -/
def fmtOk (f : Nat) : Bool := f < 12

/-- Whether the format travels in packed bursts. -/
def fmtPacked (f : Nat) : Bool := 4 ≤ f && f < 12

/-- Whether the format has block scales. -/
def fmtBlockScaled (f : Nat) : Bool := 5 ≤ f && f < 12

/-- Element bits. -/
def fmtBits (f : Nat) : Nat :=
  match f with
  | 0 => 8 | 1 => 16 | 2 => 32 | 3 => 32 | 4 => 16 | 5 => 4 | 6 => 3 | 7 => 2 | 8 => 4 | 9 => 6 | 10 => 6 | 11 => 8
  | _ => 0

/-- Elements of a block; for BF16 the 32 values of its burst. -/
def fmtBlock (f : Nat) : Nat :=
  match f with
  | 6 => 42 | 7 => 64 | _ => 32

/-- Blocks of a burst (R144). -/
def fmtBlocks (f : Nat) : Nat :=
  match f with
  | 5 => 4 | 6 => 4 | 7 => 4 | 8 => 4 | 9 => 2 | 10 => 2 | 11 => 2 | _ => 1

/-- Elements of a burst. -/
def fmtPerBurst (f : Nat) : Nat := fmtBlocks f * fmtBlock f

/-- The exponent of the least step. -/
def fmtStep (f : Nat) : Int :=
  match f with
  | 8 => -1 | 9 => -3 | 10 => -4 | 11 => -6 | _ => 0

/-- Mantissa bits of an MX float. -/
def fmtMant (f : Nat) : Nat :=
  match f with
  | 8 => 1 | 9 => 3 | _ => 2

/-- Whether the elements are floats (sign and magnitude). -/
def fmtFloatElem (f : Nat) : Bool := f == 8 || f == 9 || f == 10

/-- The place of the largest magnitude. -/
def fmtTop (f : Nat) : Nat :=
  match f with
  | 5 => 7 | 6 => 3 | 7 => 1 | 8 => 7 | 9 => 31 | 10 => 31 | 11 => 127 | _ => 0

/-- The magnitude, in least steps, at place `i` of the format's list (R143). -/
def gridMag (f i : Nat) : Nat :=
  if fmtFloatElem f then
    let mb := fmtMant f
    let ex := i / 2 ^ mb
    if ex = 0 then i else 2 ^ (ex - 1) * (2 ^ mb + i % 2 ^ mb)
  else i

/-- The largest magnitude in least steps (Mx of R154). -/
def fmtMax (f : Nat) : Nat := gridMag f (fmtTop f)

/-- The signed magnitude, in least steps, of an element code, and whether the code is invalid (R142, R143, R152). -/
def elemValue (f code : Nat) : Int × Bool :=
  if fmtFloatElem f then
    let sb := 2 ^ (fmtBits f - 1)
    (signed (code ≥ sb) (gridMag f (code % sb)), false)
  else
    let half := 2 ^ (fmtBits f - 1)
    let k : Int := if code ≥ half then (code : Int) - (2 * half : Nat) else code
    if f ≠ 11 && code = half then (0, true) else (k, false)

/-- The code of a sign and a place; a zero magnitude has the positive zero code (R155). -/
def elemCode (f : Nat) (neg : Bool) (i : Nat) : Nat :=
  if i = 0 then 0
  else if fmtFloatElem f then (if neg then 2 ^ (fmtBits f - 1) + i else i)
  else if neg then 2 ^ fmtBits f - i else i

/-! ### Rounding an element (R155, R159) -/

/-- The greatest place whose magnitude is at most `y`, searching down from `i`. -/
def gridFloor (f y : Nat) : Nat → Nat
  | 0 => 0
  | i + 1 => if gridMag f (i + 1) ≤ y then i + 1 else gridFloor f y i

/-- The integer part of `m * 2 ^ e`. -/
def dyFloor (m : Nat) (e : Int) : Nat := if 0 ≤ e then m * pow2 e else m / pow2 (-e)

/-- The place to which the magnitude `m * 2 ^ e`, in least steps, rounds, and whether it was clamped. With `rnd` the
rounding is stochastic with that 16-bit lane, else to nearest even. -/
def roundElem (f m : Nat) (e : Int) (rnd : Option Nat) : Nat × Bool :=
  let top := fmtTop f
  let i := gridFloor f (dyFloor m e) top
  let d := pow2 (-e)
  let y := if 0 ≤ e then m * pow2 e else m
  let lo := gridMag f i * d
  if i = top then (top, decide (lo < y))
  else
    let hi := gridMag f (i + 1) * d
    match rnd with
    | some r => (if r < 65536 * (y - lo) / (hi - lo) then i + 1 else i, false)
    | none =>
      if 2 * y > lo + hi || (2 * y == lo + hi && i % 2 == 1) then (i + 1, false) else (i, false)

/-! ### Block scale (R154) -/

/-- Whether `m * 2 ^ e ≤ n`. -/
def dyLe (m : Nat) (e : Int) (n : Nat) : Bool := if 0 ≤ e then m * pow2 e ≤ n else m ≤ n * pow2 (-e)

/-- The least X with `m * 2 ^ e / 2 ^ X ≤ mx * 2 ^ u`, for `m` and `mx` above 0. -/
def leastX (m : Nat) (e : Int) (mx : Nat) (u : Int) : Int :=
  let x0 := leadExp m e - leadExp mx u
  if dyLe m (e - u - x0) mx then x0 else x0 + 1

/-- An exponent clamped to the codes 0 to 254. -/
def clampE8 (x : Int) : Nat := (max 0 (min 254 (x + 127))).toNat

/-- The larger of two magnitudes `m * 2 ^ e`. -/
def dyMax (a b : Nat × Int) : Nat × Int :=
  let g := min a.2 b.2
  if a.1 * pow2 (a.2 - g) < b.1 * pow2 (b.2 - g) then b else a

/-- The largest magnitude of finite values; `(0, 0)` when all are zero. -/
def amax (vs : List Val) : Nat × Int :=
  vs.foldl (fun acc v => match v with
    | .fin _ m e => if m = 0 then acc else if acc.1 = 0 then (m, e) else dyMax acc (m, e)
    | _ => acc) (0, 0)

/-- A block scale code for values `vs`, with largest magnitude `mx * 2 ^ u`; `none` where a NaN or an infinity gives the
NaN scale (R154). -/
def blockScale (vs : List Val) (mx : Nat) (u : Int) : Option Nat :=
  if vs.any (fun v => v.isNan || v.isInf) then none
  else
    let a := amax vs
    if a.1 = 0 then some 0 else some (clampE8 (leastX a.1 a.2 mx u))

/-- What a block encoded with the NaN scale counts (R154): an infinity and no NaN is one NaN produced. -/
def nanBlockEv (vs : List Val) : Ev := { nanOut := if vs.any Val.isNan then 0 else 1 }

/-- One element under scale code `e`: its code and what it counts. -/
def encodeElem (f e : Nat) (v : Val) (rnd : Option Nat) : Nat × Ev :=
  match v with
  | .fin s m x =>
    let (i, c) := roundElem f m (x - ((e : Int) - 127) - fmtStep f) rnd
    (elemCode f s i, { sat := if c then 1 else 0, zero := if m ≠ 0 && i = 0 then 1 else 0 })
  | _ => (0, {})

/-- Key, base and first element number of a stochastic sequence (R159, R160). -/
structure Sr where
  key : Word
  base : Word
deriving DecidableEq, Repr

/-- The lane of element `k`. -/
def srLane (sr : Option Sr) (k : Nat) : Option Nat := sr.map (fun s => rnd16 s.key s.base k)

/-- The codes of elements `k`, `k + 1`, ... of a block under scale `e`. -/
def encodeElems (f e : Nat) (sr : Option Sr) : Nat → List Val → List Nat × Ev
  | _, [] => ([], {})
  | k, v :: vs =>
    let (c, ev) := encodeElem f e v (srLane sr k)
    let (cs, ev') := encodeElems f e sr (k + 1) vs
    (c :: cs, ev.plus ev')

/-- A block encoded in a block-scaled format: scale code, element codes, counts (R154, R155). -/
def encodeBlock (f : Nat) (sr : Option Sr) (k : Nat) (vs : List Val) : Nat × List Nat × Ev :=
  match blockScale vs (fmtMax f) (fmtStep f) with
  | none => (255, vs.map (fun _ => 0), nanBlockEv vs)
  | some e =>
    let (cs, ev) := encodeElems f e sr k vs
    (e, cs, ev)

/-! ### Bursts (R144 to R147) -/

/-- The bit string of codes of `w` bits each. -/
def packBits (w : Nat) : List Nat → Nat
  | [] => 0
  | c :: cs => c % 2 ^ w + 2 ^ w * packBits w cs

/-- Payload bits of one block. -/
def blockBits (f : Nat) : Nat := fmtBlock f * fmtBits f

/-- The payload of several blocks of codes. -/
def packBlocks (f : Nat) : List (List Nat) → Nat
  | [] => 0
  | b :: bs => packBits (fmtBits f) b + 2 ^ blockBits f * packBlocks f bs

/-- A 68-byte burst body of a scale word and a payload. -/
def burstBody (scale payload : Nat) : List Byte := leBytes scale 4 ++ leBytes payload 64

/-- The flags of a BF16 burst (R147). -/
def bf16Flags (cs : List Nat) : Nat :=
  (if cs.all (fun c => c % 2 ^ 15 = 0) then 4 else 0) +
  (if cs.any (fun c => c % 2 ^ 15 = 0x7F80) then 2 else 0) +
  (if cs.any (fun c => c % 2 ^ 15 > 0x7F80) then 1 else 0)

/-- The blocks of one burst encoded in turn: scale codes, codes, counts. -/
def encodeBlocks (f : Nat) (sr : Option Sr) : Nat → List (List Val) → List Nat × List (List Nat) × Ev
  | _, [] => ([], [], {})
  | k, b :: bs =>
    let (e, cs, ev) := encodeBlock f sr k b
    let (es, css, ev') := encodeBlocks f sr (k + b.length) bs
    (e :: es, cs :: css, ev.plus ev')

/-- BF16 codes of values. -/
def bf16Codes : List Val → List Nat × Ev
  | [] => ([], {})
  | v :: vs =>
    let (c, ev) := v.toBf16Ev
    let (cs, ev') := bf16Codes vs
    (c.toNat :: cs, ev.plus ev')

/-- One burst of a packed format from its elements, the first being number `k` of the sequence (R144, R145). -/
def encodeBurst (f : Nat) (sr : Option Sr) (k : Nat) (vs : List Val) : List Byte × Ev :=
  if f = 4 then
    let (cs, ev) := bf16Codes vs
    let cs := cs ++ List.replicate (32 - cs.length) 0
    (burstBody (bf16Flags cs) (packBits 16 cs), ev)
  else
    let (es, css, ev) := encodeBlocks f sr k (chunks (fmtBlock f) (fmtBlocks f) vs)
    (burstBody (packBits 8 es) (packBlocks f css), ev)

/-- A sequence in bursts, the last partly filled (R145). -/
def encodeBursts (f : Nat) (sr : Option Sr) : Nat → List (List Val) → List Byte × Ev
  | _, [] => ([], {})
  | k, b :: bs =>
    let (x, ev) := encodeBurst f sr k b
    let (xs, ev') := encodeBursts f sr (k + b.length) bs
    (x ++ xs, ev.plus ev')

/-- Code `i` of block `b` of a burst payload. -/
def burstCode (f payload b i : Nat) : Nat := payload / 2 ^ (blockBits f * b + fmtBits f * i) % 2 ^ fmtBits f

/-- A source element: its exact value, what reading it counts, and whether a NaN block scale made it (R152). -/
structure SrcElem where
  v : Val
  ev : Ev
  fromScale : Bool
deriving DecidableEq, Repr

/-- Element `j` of a 68-byte burst read by a conversion (R141 to R143, R152). -/
def decodeElem (f scale payload j : Nat) : SrcElem :=
  if f = 4 then { v := Val.ofBf16 (BitVec.ofNat 16 (payload / 2 ^ (16 * j))), ev := {}, fromScale := false }
  else
    let b := j / fmtBlock f
    let e := scale / 2 ^ (8 * b) % 256
    let (k, inv) := elemValue f (burstCode f payload b (j % fmtBlock f))
    let i := if inv then 1 else 0
    if e = 255 then { v := .nan, ev := { invalid := i + 1 }, fromScale := true }
    else { v := .fin (decide (k < 0)) k.natAbs ((e : Int) - 127 + fmtStep f), ev := { invalid := i }, fromScale := false }

/-- All elements of one burst. -/
def decodeBurst (f : Nat) (bs : List Byte) : List SrcElem :=
  let sc := leNat (bs.take 4)
  let pl := leNat (bs.drop 4)
  (List.range (fmtPerBurst f)).map (decodeElem f sc pl)

/-- Bytes that `n` elements take (R137, R138, R145, R148). -/
def fmtBytes (f n : Nat) : Nat :=
  if fmtPacked f then 68 * ((n + fmtPerBurst f - 1) / fmtPerBurst f) else n * (fmtBits f / 8)

/-- The alignment an operand needs (R137, R138, R148). -/
def fmtAlign (f : Nat) : Nat := if fmtPacked f then 4 else fmtBits f / 8

/-- `n` elements read from the bytes that hold them. -/
def decodeSeq (f n : Nat) (bs : List Byte) : List SrcElem :=
  if fmtPacked f then ((chunks 68 (bs.length / 68) bs).flatMap (decodeBurst f)).take n
  else
    let w := fmtBits f / 8
    (chunks w n bs).map (fun c =>
      { v := if f = 3 then Val.ofF32 (BitVec.ofNat 32 (leNat c)) else Val.ofInt (leInt c), ev := {}, fromScale := false })

/-! ### Conversion (R156, R637) -/

/-- One element to an unpacked format. -/
def cvtUnpacked (df : Nat) (x : SrcElem) : List Byte × Ev :=
  if df = 3 then
    let (c, ev) := x.v.toF32Ev
    (leBytes c.toNat 4, ev)
  else
    let (k, ev) := x.v.toIntEv (fmtBits df) (!x.fromScale)
    (intBytes k (fmtBits df / 8), ev)

/-- Elements to an unpacked format. -/
def cvtUnpackedSeq (df : Nat) : List SrcElem → List Byte × Ev
  | [] => ([], {})
  | x :: xs =>
    let (b, ev) := cvtUnpacked df x
    let (bs, ev') := cvtUnpackedSeq df xs
    (b ++ bs, ev.plus ev')

/-- What reading source elements counts. -/
def srcEv (xs : List SrcElem) : Ev := xs.foldl (fun a x => a.plus x.ev) {}

/-- A sequence converted to format `df` (R637): the destination bytes and all that is counted. -/
def cvtSeq (df : Nat) (sr : Option Sr) (xs : List SrcElem) : List Byte × Ev :=
  let (bs, ev) :=
    if fmtPacked df then encodeBursts df sr 0 (chunks (fmtPerBurst df) xs.length (xs.map SrcElem.v))
    else cvtUnpackedSeq df xs
  (bs, (srcEv xs).plus ev)

/-! ### Lot staging form (R157) -/

/-- One scaled value to an integer from −mx to +mx under scale code `e`, and what it counts. -/
def stageElem (mx e : Nat) (v : Val) : Int × Ev :=
  match v with
  | .fin s m x =>
    let q := roundGrid m (x - ((e : Int) - 127)) 0 false
    let beyond := !dyLe m (x - ((e : Int) - 127)) mx
    let q' := if beyond then mx else q
    (signed s q', { sat := if beyond then 1 else 0, zero := if m ≠ 0 && q' = 0 then 1 else 0 })
  | _ => (0, {})

/-- A value at n = 1 under scale code `e`: 0 or −1. -/
def stageSign (e : Nat) (v : Val) : Int × Ev :=
  match v with
  | .fin s m x =>
    if m = 0 then (0, {})
    else if !s then (0, { sat := 1 })
    else
      let y := x - ((e : Int) - 127)
      if !dyLe m y 1 then (-1, { sat := 1 })
      else if roundGrid m y 0 false = 0 then (0, { zero := 1 }) else (-1, {})
  | _ => (0, {})

/-- Codes with their counts together. -/
def gather (xs : List (Int × Ev)) : List Int × Ev :=
  (xs.map Prod.fst, xs.foldl (fun a x => a.plus x.2) {})

/-- The MXINT8 codes of a run of bursts, block by block with the block's scale. -/
def mx8Blocks (bs : List Byte) : List (Nat × List Int) :=
  (chunks 68 (bs.length / 68) bs).flatMap (fun b =>
    let pl := leNat (b.drop 4)
    [0, 1].map (fun j => (leNat ((b.drop j).take 1),
      (List.range 32).map (fun i => (elemValue 11 (burstCode 11 pl j i)).1))))

/-- 1,024 elements of format `sf` in the staging form at width `n`: codes, vector scale, counts (R157). -/
def stageVec (n sf : Nat) (bs : List Byte) : List Int × Nat × Ev :=
  let xs := decodeSeq sf 1024 bs
  if sf = 11 && xs.any SrcElem.fromScale then
    (xs.map (fun _ => 0), 255, srcEv xs)
  else if sf = 11 && n = 8 then
    let blocks := mx8Blocks bs
    let emax := blocks.foldl (fun a b => max a b.1) 0
    let e := emax - 6
    let (cs, ev) := gather (blocks.flatMap (fun b => b.2.map (fun (c : Int) =>
      let q := roundInt (decide (c < 0)) c.natAbs ((b.1 : Int) - 6 - e)
      (q, { zero := if c ≠ 0 && q = 0 then 1 else 0 }))))
    (cs, e, ev)
  else
    let vs := xs.map SrcElem.v
    let mx := if n = 1 then 1 else 2 ^ (n - 1) - 1
    match blockScale vs mx 0 with
    | none => (vs.map (fun _ => 0), 255, (srcEv xs).plus (nanBlockEv vs))
    | some e =>
      let (cs, ev) := gather (vs.map (if n = 1 then stageSign e else stageElem mx e))
      (cs, e, (srcEv xs).plus ev)

end Sys2Proof.Machine
end

