-- ==== Sys2Proof/Machine/Sparse.lean ====
section
/-!
DEFINITION. Tables keyed by number, and byte memories in canonical form (01 R41, 12 R365).

`Sparse` holds one entry for each unit that has been written; a unit without an entry is in its initial state.
`Mem` is a byte memory: its entries stand in rising address order and none equals what an unlisted address reads as
(`dflt`), so equal memories are equal lists.
-/
namespace Sys2Proof.Machine

/-- A table from numbers to values. -/
abbrev Sparse (α : Type) := List (Nat × α)

/-- The entry of `k`, or `d`. -/
def Sparse.get {α : Type} (d : α) : Sparse α → Nat → α
  | [], _ => d
  | (k', v) :: m, k => if k' = k then v else Sparse.get d m k

/-- The table with `v` at `k`, entries kept in rising order. -/
def Sparse.put {α : Type} : Sparse α → Nat → α → Sparse α
  | [], k, v => [(k, v)]
  | (k', v') :: m, k, v =>
    if k' = k then (k, v) :: m
    else if k < k' then (k, v) :: (k', v') :: m
    else (k', v') :: Sparse.put m k v

/-- A byte memory: cells of Host.Core. -/
abbrev Mem := List Host.Cell

/-- What `m` holds at `a`; `d` is what an unlisted address reads as there. -/
def Mem.get (d : Byte) : Mem → Nat → Byte
  | [], _ => d
  | (k, v) :: m, a => if k = a then v else Mem.get d m a

/-- `m` without an entry for `a`. -/
def Mem.erase : Mem → Nat → Mem
  | [], _ => []
  | (k, v) :: m, a => if k = a then Mem.erase m a else (k, v) :: Mem.erase m a

/-- `m` with an entry `(a, v)`. -/
def Mem.insert : Mem → Nat → Byte → Mem
  | [], a, v => [(a, v)]
  | (k, w) :: m, a, v =>
    if k = a then (a, v) :: m
    else if a < k then (a, v) :: (k, w) :: m
    else (k, w) :: Mem.insert m a v

/-- `m` with byte `v` at `a`: writing what the unlisted address reads as removes the entry. -/
def Mem.set (d : Byte) (m : Mem) (a : Nat) (v : Byte) : Mem :=
  if v = d then Mem.erase m a else Mem.insert m a v

/-- `m` without entries for the `n` addresses from `a` on: they read as unlisted. -/
def Mem.clear (m : Mem) (a n : Nat) : Mem := m.filter (fun c => !(decide (a ≤ c.1) && decide (c.1 < a + n)))

/-- Addresses strictly rising, all above `lo`. -/
def Mem.sortedFrom : Nat → Mem → Bool
  | _, [] => true
  | lo, (k, _) :: m => decide (lo ≤ k) && Mem.sortedFrom (k + 1) m

/-- The canonical form: addresses strictly rising, no entry equal to what an unlisted address reads as. -/
def Mem.wf (dflt : Nat → Byte) (m : Mem) : Bool :=
  Mem.sortedFrom 0 m && m.all (fun c => decide (c.2 ≠ dflt c.1))

/-- `n` bytes from `a` on. -/
def Mem.read (dflt : Nat → Byte) (m : Mem) (a : Nat) : Nat → List Byte
  | 0 => []
  | n + 1 => Mem.get (dflt a) m a :: Mem.read dflt m (a + 1) n

/-- The bytes `bs` written from `a` on. -/
def Mem.write (dflt : Nat → Byte) : Mem → Nat → List Byte → Mem
  | m, _, [] => m
  | m, a, b :: bs => Mem.write dflt (Mem.set (dflt a) m a b) (a + 1) bs

end Sys2Proof.Machine
end

