-- ==== Sys2Proof/Machine/Units.lean ====
section
/-!
DEFINITION. The state of one parcel and of the units in it: sweeper, lots, DME, meter, regulator, queues, KV append
path, lane unit and router. Plain data; every field cites the rule that names it. `{}` of each structure is the unit
in its initial state: the reset values of the field maps.
-/
namespace Sys2Proof.Machine

/-! ### Flits (R263 to R270) -/

/-- What the DST or SRC of a flit names (R264). -/
inductive Endpoint where
  | parcel (i : Pid)
  | tree (t : Nat)
  | warden (d : DistId)
  | stack (k : StackId)
  | port (p : PortId)
  | mgmt (i : Fin 2)
deriving DecidableEq, Repr, Inhabited

/-- The flow of a record: engine and logical parcel of its source, and its channel (R229, R231, R247). For records of
a multicast tree the source is the tree's root (R232). -/
structure Flow where
  eng : Nat
  lp : Nat
  ch : Nat
deriving DecidableEq, Repr, Inhabited

/-- Which work a stack write belongs to: a store queue entry, a home write of a staged KV row (`run` tells the attempts at a step apart),
an entry of the parcel's spill ring, or the spill area of a port. -/
inductive WriteOrigin where
  | stq (entry : Nat)
  | home (step slot run : Nat)
  | spill (entry : Nat)
  | port
deriving DecidableEq, Repr, Inhabited

/-- Which work a stack read belongs to: a load queue entry, or an entry of the parcel's spill ring (R376, R381). -/
inductive ReadOrigin where
  | ldq (entry : Nat)
  | spill (entry : Nat)
deriving DecidableEq, Repr, Inhabited

/-- One record of a KAP on its way to the page's owner (R223). `part` is the record's number in the KAP. -/
structure KapRow where
  step : Nat
  slot : Nat
  layer : Nat
  head : Nat
  value : Bool
  pos : Nat
  part : Nat
  bytes : List Byte
  issuer : Pid
  tk : BitVec 4
  tag : BitVec 4
  id : Nat
deriving DecidableEq, Repr, Inhabited

/-- What a management flit says: a heartbeat of the registry or of a warden, a hole found, the reply of a warden to a command
(R37, R275, R293, R550). -/
inductive MgmtMsg where
  | registryBeat
  | beat (d : Nat)
  | hole (d : Nat)
  | reply (d : Nat)
deriving DecidableEq, Repr, Inhabited

/-- What a flit carries (R263 TYPE). `egress` is a record on its way to a port block for another engine (R436). -/
inductive Payload where
  | record (flow : Flow) (raw : Bool) (bytes : List Byte) (step : Nat)
  | egress (flow : Flow) (dstE dstP fseq : Nat) (raw : Bool) (bytes : List Byte) (step : Nat)
  | readReq (o : ReadOrigin) (first count addr share : Nat)
  | readResp (o : ReadOrigin) (idx : Nat) (bytes : List Byte) (lost : Bool)
  | write (addr : Nat) (bytes : List Byte) (origin : WriteOrigin) (pool : Bool)
  | ackCount (k : StackId) (origins : List WriteOrigin) (poolBack : Nat) (grant : Nat)
  | kapRow (r : KapRow)
  | kapAck (id : Nat)
  | summary (slot head page : Nat) (bytes : List Byte)
  | mgmt (m : MgmtMsg)
deriving DecidableEq, Repr, Inhabited

/-- Where a flit stands: at its source, waiting for a buffer; on the link into input port `inp` of a router; in a buffer of that input; at
junction `j` of the edge chain (R279); at the sink it goes to. Ports are N 0, S 1, E 2, W 3, local 4. -/
inductive Loc where
  | source
  | link (r : Pid) (inp : Fin 5)
  | buf (r : Pid) (inp : Fin 5)
  | chain (j : Fin 384)
  | sink (e : Endpoint)
deriving DecidableEq, Repr, Inhabited

/-- A flit in flight: the header fields of R263 and its place; `outs` lists the outputs that its copies are still to leave a router
through, each with the leg beyond it; `since` is the FCLK cycle since which it waits where it stands, for a head since it became one.
The flits of the lanes are listed in the order in which they came to where they stand. -/
structure Flit where
  id : Nat
  vc : Nat
  tenant : Nat
  ch : Nat
  dst : Endpoint
  src : Endpoint
  seq : Nat
  typ : Nat
  leg : Nat
  wayd : Nat
  payload : Payload
  loc : Loc
  outs : List (Nat × Nat) := []
  since : Nat
deriving DecidableEq, Repr, Inhabited

/-! ### Lots (02, 03) -/

/-- LOT.CP_CFG (R107). -/
structure CpCfg where
  outliers : Nat := 0
  auditLog2 : Nat := 16
  flagLimit : Nat := 16
  driftMode : Nat := 1
  checkEn : Bool := true
  thresh : Nat := 12
deriving DecidableEq, Repr, Inhabited

/-- An LMV or LMVA in a parcel (R208, R209): its number in issue order, registers read at issue (R194). -/
structure LmvWork where
  id : Nat
  accum : Bool
  tag : BitVec 4
  tk : BitVec 4
  logical : Nat
  phys : LotId
  n : Nat
  ofmt : Nat
  src : Nat
  dst : Nat
  fw : Bool
  epc : Nat
deriving DecidableEq, Repr, Inhabited

/-- An entry of lot input staging: 1,024 INT8 codes and the vector scale (R51, R68). -/
structure Staged where
  work : LmvWork
  codes : List Byte
  e : Byte
deriving DecidableEq, Repr, Inhabited

/-- An entry of the lot output queue (R63, R68). `a` holds the adjusted accumulators without outliers, or the exact sums of a
recomputed group (R93, R101), `o` the outlier sums its correction job formed (R88) from `codes` and the first `count` entries of
the list, and `y` the outputs once both are there; the groups whose recompute is pending; whether its correction job has run. -/
structure OutEntry where
  work : LmvWork
  y : List F32 := []
  e : Byte
  codes : List Byte := []
  count : Nat := 0
  a : List Int := []
  o : List Int := []
  failing : List Nat := []
  recomputed : Bool := true
  jobDone : Bool := true
deriving DecidableEq, Repr, Inhabited

/-- What an LMV takes at its start (R80, R92): corrected gain and offset of each read column, the raw column table of the
drift-reference columns, GROUP_D and the configuration. -/
structure Snap where
  rho : List Nat
  beta : List Int
  refRho : List Nat
  refBeta : List Int
  groupD : List Nat
  cp : CpCfg
  noTrack : BitVec 8
deriving DecidableEq, Repr

/-- A drift sample: group, expected code, corrected code in Q.8 (R90). -/
structure Sample where
  group : Nat
  e : Int
  m : Int
deriving DecidableEq, Repr

/-- What an LMV has gathered while it runs. -/
structure Run where
  conv : Nat := 0
  acc : List Int := List.replicate 1040 0
  b : Int := 0
  phases : Nat := 0
  halvings : Nat := 0
  clamps : Nat := 0
  checkFail : Nat := 0
  rereads : Nat := 0
  skips : Nat := 0
  persist : List Nat := []
  samples : List Sample := []
deriving DecidableEq, Repr

/-- A read that an LMV has still to make: its rows, the weight of its plane, and whether it is a half of a phase (R60). -/
structure Read where
  rows : List Nat
  wk : Int
  half : Bool
deriving DecidableEq, Repr

/-- An LMV that stalls at a persistent failure, since INPUT_SAVE still holds the codes of another (R102): its input, what disturbs
its conversions, its snapshot, what it has gathered, and the reads it has still to make. -/
structure StalledLmv where
  st : Staged
  ds : List (Nat × Nat × Int)
  sn : Snap
  r : Run
  rest : List Read
deriving DecidableEq, Repr

/-- How far a lot is in its programming (R347 to R350). -/
inductive ProgState where
  | idle
  | programming (background : Bool)
  | programmed
deriving DecidableEq, Repr, Inhabited

/-- A full drift record taken for fitting (R90, R91). -/
structure FitRec where
  group : Nat
  sumEm : Int
  sumE : Int
  sumE2 : Int
  sumM : Int
deriving DecidableEq, Repr, Inhabited

/-- One physical lot (R78, R79, R107, R108). The correction block is in the parcel's SRAM (R81); MAPPED is computed from the active lot
map (R352). `cells` holds the two levels of each programmed site by its key (row times 1,056 plus column, physical); cells keep their
levels without power (R77). `segment` is the stack address and the index of the LOT segment that was programmed (R101 recomputes from
it); `adc` is its ADC offset figure (R535). `stalled` is the LMV that waits for INPUT_SAVE (R102). -/
structure LotState where
  lastPhases : Nat := 0
  stale : Bool := true
  flag : Bool := false
  rowRemap : Sparse Word := []
  colRemap : Sparse Word := []
  lmvDone : Nat := 0
  lmvSkip : Nat := 0
  phases : Nat := 0
  planesSkipped : Nat := 0
  halvings : Nat := 0
  clamps : Nat := 0
  cp : CpCfg := {}
  checkFail : Nat := 0
  rereads : Nat := 0
  checkSkip : Nat := 0
  driftUpd : Nat := 0
  persist : Nat := 0
  persistSince : Nat := 0
  resid : Nat := 0
  audits : Nat := 0
  driftX : BitVec 8 := 0
  lmvNumber : Nat := 0
  auditNumber : Nat := 0
  gain : Sparse Int := []
  offs : Sparse Int := []
  scales : Sparse (BitVec 16) := []
  queue : List LmvWork := []
  staging : List Staged := []
  outq : List OutEntry := []
  saveHeld : Option Nat := none
  stalled : Option StalledLmv := none
  fits : List FitRec := []
  noTrack : BitVec 8 := 0
  cells : Sparse (Nat × Nat) := []
  segment : Option (Nat × Nat) := none
  reported : Bool := false
  failedLast : Bool := false
  adc : Nat := 0
  prog : ProgState := .idle
deriving DecidableEq, Repr

/-! ### DME (04) -/

/-- The kind of accumulation an entry holds (R115). -/
inductive AccKind where
  | none | int | float
deriving DecidableEq, Repr, Inhabited

/-- A vector entry of the accumulator file (R109, R114): 64 columns, the two half-accumulators of an integer entry or
the binary32 values of a float entry. -/
structure AccEntry where
  kind : AccKind := .none
  up : List Int := []
  lo : List Int := []
  f : List F32 := []
deriving DecidableEq, Repr, Inhabited

/-- The work of one DME instruction with its registers read at issue. -/
inductive DmeOp where
  | dmm (o : DmmOps) (rt rx rd : Nat)
  | dmg (o : DmgOps) (rb : Nat)
  | ats (o : AtsOps) (rq rp rd : Nat)
  | atv (o : AtvOps) (rw rp rd : Nat)
  | atx (o : AtxOps) (rq rs rd : Nat) (rn : Word)
deriving DecidableEq, Repr

/-- A queued DME instruction. `behind` says that another instruction was in the DME when it was issued (R636). -/
structure DmeWork where
  id : Nat
  tag : BitVec 4
  tk : BitVec 4
  op : DmeOp
  fw : Bool
  epc : Nat
  behind : Bool
deriving DecidableEq, Repr

/-- A fetched tile: the instruction and the bytes its tile operand held when the fetch began (R117). -/
structure Fetched where
  work : DmeWork
  tile : List Byte
deriving DecidableEq, Repr

/-- One vector of the operand queue (R124): which DMM it belongs to, which vector of it, the bytes of the bursts or
elements that hold it, how many elements of them precede it, and the queue entries it takes (two in wide reference mode,
R213). -/
structure OpVec where
  id : Nat
  v : Nat
  bytes : List Byte
  skip : Nat
  slots : Nat
deriving DecidableEq, Repr, Inhabited

/-- The grid state of R127: the format and the codes of the cell registers (cell of row i and column j is number 64 j + i; none
listed where they are cleared), the codes last streamed that the hop registers hold, and the 32-bit partial sums, 64 for each
vector that has flowed. -/
structure GridState where
  fmt : Nat := 0
  cells : List Nat := []
  hop : List Nat := []
  sums : List (List (BitVec 32)) := []
deriving DecidableEq, Repr, Inhabited

/-- The digital matrix engine (R109, R115, R124 to R127, R134, R135). `corr` is the correction entry: the sums of the last correction
job (R109, R126; log 114). `stallAt` is the DMM and vector whose stall OPQ_STALL counted last. -/
structure DmeState where
  queue : List DmeWork := []
  shadow : Option Fetched := none
  running : Option Fetched := none
  opq : List OpVec := []
  acc : Sparse AccEntry := []
  corr : List Int := []
  jobs : List (Nat × LotId) := []
  lease : Nat := 0
  grid : Bool := false
  gridState : GridState := {}
  exc : Bool := false
  dmmDone : Nat := 0
  dmgDone : Nat := 0
  cjDone : Nat := 0
  active : Nat := 0
  activeCycles : Nat := 0
  opqStall : Nat := 0
  stallAt : Option (Nat × Nat) := none
  tileStall : Nat := 0
deriving DecidableEq, Repr

/-! ### Sweeper (06) -/

/-- What a sweeper instruction that has issued waits for: an event for a register (EVWAIT), token counters (WAITQ), or
every unit instruction (FENCE) (R190, R228). -/
inductive Wait where
  | event (rd : Nat)
  | tokens (mask : BitVec 16)
  | fence
deriving DecidableEq, Repr

/-- Data faults that a parcel reports (R151, R265, R276, R294, R310); `record` is a stored record at a stack address that failed its CRC. -/
inductive DataFault where
  | crc | append | detour | spill | lane | sramUe | peer | lost
  | record (a : Nat)
deriving DecidableEq, Repr

/-- What a parcel has put into its warden's command queue: an exception with its cause, unit, lot and EPC (R200), a data
fault of a batch step, a value posted with EVPOST (R190), or a lot due for a swap (R103). -/
inductive Report where
  | exception (cause unit lot epc : Nat) (fw : Bool)
  | data (kind : DataFault) (step : Nat)
  | post (v : Word)
  | lotFlag (l : LotId)
deriving DecidableEq, Repr

/-- The sweeper (R169 to R203). `inReset` is the reset that holds it at load; `stopped` is issue stopped by a STOP or an exception,
`halted` by an exception (R199). `pc` and `fpc` are SRAM offset and firmware store offset; `recodes` are the codes that a recompute
routine has read from INPUT_SAVE (R101). -/
structure Sweeper where
  inReset : Bool := true
  g : Sparse Word := []
  v : Sparse VReg := []
  fg : Sparse Word := []
  fv : Sparse VReg := []
  pc : Nat := 0x530000
  fpc : Nat := 0
  fw : Bool := false
  fwEvent : Word := 0
  exc : Bool := false
  stopped : Bool := false
  halted : Bool := false
  wait : Option Wait := none
  epc : Nat := 0
  excLot : Nat := 0
  excUnit : Nat := 0
  excTag : Nat := 0
  cause : Nat := 0
  issued : Nat := 0
  stallDep : Nat := 0
  stallQueue : Nat := 0
  stallMeter : Nat := 0
  param : Sparse Word := []
  scratch : Sparse Word := []
  cycle : Nat := 0
  step : Word := 0
  events : List Word := []
  postWaiting : List Word := []
  recodes : List Byte := []
  lastImageFault : Option (Nat × Nat) := none
deriving DecidableEq, Repr

/-! ### Meter and regulator (15) -/

/-- A unit instruction in flight and the declared draw it holds until its token completes (R240). -/
structure HeldDraw where
  id : Nat
  cls : Nat
deriving DecidableEq, Repr, Inhabited

/-- The meter (R461 to R464, R477, R484, R233). `eff` is RE, `scale` is S, in force since the last window boundary; `beats`
holds the windows left of each background beat that is admitted (R358). -/
structure Meter where
  ration : Nat := 250
  scale : Nat := 256
  eff : Nat := 250
  halt : Bool := false
  guard : Bool := false
  surp : Bool := false
  windowI : Nat := 0
  held : List HeldDraw := []
  beats : List Nat := []
  forecast : Nat := 0
  forecastWindows : Nat := 0
  guardStall : Nat := 0
  surplusWin : Nat := 0
  stalledInWindow : Bool := false
  overInWindow : Bool := false
  modeApplied : Nat := 0
deriving DecidableEq, Repr

/-- The regulator (R456 to R459, R484). `clamp` is the protective 2.60 A clamp after a second lost phase. -/
structure Regulator where
  vset : Nat := 0
  iout : Nat := 0
  phOk : BitVec 5 := 0
  ilim : Bool := false
  ctrlFail : Bool := false
  ramp : Bool := false
  on : Bool := false
  clamp : Bool := false
deriving DecidableEq, Repr

/-! ### Stack windows, queues (07, 12) -/

/-- One stack window (R374). -/
structure Window where
  r : Bool := false
  w : Bool := false
  key : Nat := 0
  share : Nat := 0
  base : Nat := 0
  length : Nat := 0
  segLen : Nat := 0
  first : Nat := 0
deriving DecidableEq, Repr, Inhabited

/-- An entry of the load queue or of the store queue (R225, R226, R376). `order` is the issue order over both queues
(R227); `seen` holds the indices of the records received, `sent` counts the records sent, `acked` those acknowledged. -/
structure QueEntry where
  id : Nat
  order : Nat
  store : Bool
  tag : BitVec 4
  tk : BitVec 4
  raw : Bool
  addr : Nat
  n : Nat
  sram : Nat
  fw : Bool
  epc : Nat
  started : Bool
  seen : List Nat
  sent : Nat
  acked : Nat
  win : Nat
deriving DecidableEq, Repr, Inhabited

/-- A KAP in the KV append queue, its descriptor and source read when the path serves it (R222 to R224). -/
structure KapWork where
  id : Nat
  tag : BitVec 4
  tk : BitVec 4
  value : Bool
  src : Nat
  desc : Nat
  fw : Bool
  epc : Nat
  sent : Bool
deriving DecidableEq, Repr, Inhabited

/-- An instruction of the lane unit queue (R229 to R232). -/
inductive LaneWork where
  | snd (id : Nat) (tag tk : BitVec 4) (plan raw : Bool) (n ch src : Nat) (target : Word) (fw : Bool) (epc : Nat)
  | rcv (id : Nat) (tag tk : BitVec 4) (raw : Bool) (n ch dst : Nat) (source : Word) (fw : Bool) (epc : Nat)
  | mcs (id : Nat) (tag tk : BitVec 4) (raw : Bool) (n ch src tree : Nat) (fw : Bool) (epc : Nat)
deriving DecidableEq, Repr

/-- A posted receive buffer (R231): it takes the records of its flow numbered `base` to `base + n − 1`. -/
structure Posted where
  id : Nat
  tag : BitVec 4
  tk : BitVec 4
  flow : Flow
  raw : Bool
  n : Nat
  dst : Nat
  base : Nat
  got : List Nat
  fw : Bool
  epc : Nat
deriving DecidableEq, Repr, Inhabited

/-- A record held in the receive store (R231) or, with its spill entry number, in the spill region (R380). -/
structure HeldRec where
  flow : Flow
  raw : Bool
  seq : Nat
  bytes : List Byte
  step : Nat
deriving DecidableEq, Repr, Inhabited

/-- A spill entry in use (R380, R381): its number in the ring, the record's flow, or the KAP row it is a record of; how many of its two
writes are acknowledged, and whether it is being read back. -/
structure SpillEnt where
  entry : Nat
  flow : Flow
  raw : Bool
  seq : Nat
  step : Nat
  kap : Option KapRow := none
  acked : Nat := 0
  reading : Bool := false
deriving DecidableEq, Repr, Inhabited

/-- The next sequence number of a flow this lane unit sends: its target engine and parcel (or tree), and channel. -/
structure SentFlow where
  tree : Bool
  eng : Nat
  lp : Nat
  ch : Nat
  next : Nat
deriving DecidableEq, Repr, Inhabited

/-- The lane unit: instruction queue, the number of the send that runs with the flits it has injected, posted buffers, receive store,
spill ring, and the record count of each flow sent and of each flow received so far, now and as they stood at the last PASS_START
(log 23). -/
structure LaneUnit where
  queue : List LaneWork := []
  sending : Option (Nat × Nat) := none
  posted : List Posted := []
  store : List HeldRec := []
  spill : List SpillEnt := []
  spillNext : Nat := 0
  sent : List SentFlow := []
  received : List (Flow × Nat) := []
  passSent : List SentFlow := []
  passReceived : List (Flow × Nat) := []
deriving DecidableEq, Repr

/-! ### KV cache at a member (10) -/

/-- A page a member owns (R303 to R307, R324, R326): slot, KV head, page index, home, frame if hot, sealed, the number
of slots that refer to it. -/
structure Page where
  slot : Nat
  head : Nat
  n : Nat
  home : Nat
  frame : Option Nat
  sealed : Bool
  refs : List Nat
deriving DecidableEq, Repr, Inhabited

/-- A slot open at the member for a step (R310, R320). -/
structure OpenSlot where
  slot : Nat
  len : Nat
  step : Nat
deriving DecidableEq, Repr, Inhabited

/-- A row staged for a step (R310, R311). -/
structure StagedRow where
  step : Nat
  slot : Nat
  head : Nat
  value : Bool
  pos : Nat
deriving DecidableEq, Repr, Inhabited

/-- Home writes of a slot in a step not yet acknowledged; `run` is the attempt at the step that sent them (R311). -/
structure HomeCount where
  step : Nat
  slot : Nat
  run : Nat
  n : Nat
deriving DecidableEq, Repr, Inhabited

/-- A sealed page whose summary is still to be sent under a slot: to the members of the head group from number `next` on (R314, R329). -/
structure SummaryDue where
  slot : Nat
  head : Nat
  n : Nat
  next : Nat := 0
deriving DecidableEq, Repr, Inhabited

/-- A member's part of the KV cache. `homeWrites` counts the home writes not yet acknowledged (R311); `halves` holds the first record of
each key append whose second has not come (R224); `summaries` lists the (slot, head, page) whose summary this member holds; `summaryDue`
lists the sealed pages whose summary is still to be sent (R314, R329); homes are numbered from KV_BASE in units of 55,296 bytes (R324);
`tables` gives the place of the summary table and location vector of a (slot, head). -/
structure KvState where
  cfg : Word := 0
  pages : List Page := []
  open_ : List OpenSlot := []
  staged : List StagedRow := []
  homeWrites : List HomeCount := []
  halves : List KapRow := []
  summaryDue : List SummaryDue := []
  summaries : List (Nat × Nat × Nat) := []
  tables : List (Nat × Nat × Nat) := []
  nextHome : Nat := 0
  freeHomes : List Nat := []
  rowsStaged : Nat := 0
  rowsDiscarded : Nat := 0
  seals : Nat := 0
  evicts : Nat := 0
  promotes : Nat := 0
  appendDrop : Nat := 0
deriving DecidableEq, Repr

/-! ### Router (09) -/

/-- A tenant's place in a weighted round robin: the grant from which it counts and what it has been served since. -/
structure Seat where
  key : Nat
  base : Nat
  served : Nat
deriving DecidableEq, Repr, Inhabited

/-- A weighted round robin: the grants made, and the places of those who waited at the last one (R290, R383). -/
structure Turn where
  grants : Nat := 0
  seats : List Seat := []
deriving DecidableEq, Repr, Inhabited

/-- A parcel's router (R260 to R268, R290, R297, R299). `used` counts the buffers taken at the next router for an output,
VC and leg (key 24 out + 4 vc + leg); `resv` and `resvNext` are the reservation maps, one of 4,096 bits per output, the second with the
frame from which it holds; `busy` is the first FCLK cycle in which an output may be granted again, `vc4At` the first in which VC4 may take
the third step of R268; `turns` are the easement turns of each output and VC (key 8 out + vc). -/
structure Router where
  half : BitVec 4 := 0
  dead : BitVec 4 := 0
  spareW : Nat := 0
  fenced : Bool := false
  flitsOut : Nat := 0
  flitsRest : Nat := 0
  agedWins : Nat := 0
  detourDrop : Nat := 0
  planMiss : Nat := 0
  spilled : Nat := 0
  used : Sparse Nat := []
  busy : Sparse Nat := []
  vc4At : Sparse Nat := []
  turns : Sparse Turn := []
  resv : Sparse (BitVec 4096) := []
  resvNext : Option (Nat × Sparse (BitVec 4096)) := none
deriving DecidableEq, Repr

/-! ### The parcel -/

/-- One tag's counters (R163, R164). -/
structure TagCtr where
  sat : Nat := 0
  zero : Nat := 0
  invalid : Nat := 0
  nanOut : Nat := 0
  crcBad : Nat := 0
deriving DecidableEq, Repr, Inhabited

/-- PCL.FAULT (R569, R642) and PCL.CAL (R542). -/
structure ParcelHealth where
  leases : Nat := 0
  fenceEvent : BitVec 16 := 0
  cover : Bool := false
  bollard : Bool := false
  retired : Bool := false
  failsInRow : Nat := 0
  lotsRetired : BitVec 18 := 0
  vmin3 : Nat := 60
  vmin4 : Nat := 60
  vmin5 : Nat := 60
  vmin8 : Nat := 60
  temp : Int := 0
  tempFail : Bool := false
  phaseLostCount : Nat := 0
deriving DecidableEq, Repr

/-- One parcel: SRAM and the state of its units. `badWords` lists the 8-byte SRAM words, by offset / 8, that their code finds
uncorrectable (R198); no command of the block makes a word bad or good. -/
structure ParcelState where
  sram : Mem := []
  badWords : List Nat := []
  swp : Sweeper := {}
  meter : Meter := {}
  reg : Regulator := {}
  health : ParcelHealth := {}
  cls : Sparse Nat := []
  win : Sparse Window := []
  kv : KvState := {}
  rtr : Router := {}
  map : Sparse (BitVec 8) := []
  mapStaged : Sparse (BitVec 8) := []
  mapArm : Bool := false
  mapBad : Bool := false
  lots : Sparse LotState := []
  dme : DmeState := {}
  tags : Sparse TagCtr := []
  tokens : Sparse Nat := []
  lq : List QueEntry := []
  sq : List QueEntry := []
  kapq : List KapWork := []
  lane : LaneUnit := {}
  writeCredits : Sparse Nat := []
  poolCredits : Sparse Nat := []
  nextId : Nat := 0
  reports : List Report := []
deriving DecidableEq, Repr

end Sys2Proof.Machine
end

