-- ==== Sys2Proof/Machine/Parcel.lean ====
section
/-!
DEFINITION. The named operations on one parcel: SRAM and its areas, register banks, counters, tokens, events, exceptions,
the meter's admission and the issue of a sweeper instruction (06 R169 to R203, 07 R204 to R206, 08 R239 to R241,
15 R461 to R464).
-/
namespace Sys2Proof.Machine

/-! ### Saturating counters (R79, R164) -/

/-- `n` added to a counter of `w` bits that saturates at all ones. -/
def satAdd (w a n : Nat) : Nat := min (a + n) (2 ^ w - 1)

/-- Events counted against tag `t` (R163). -/
def ParcelState.count (ps : ParcelState) (t : Nat) (ev : Ev) : ParcelState :=
  let c := Sparse.get {} ps.tags t
  { ps with tags := Sparse.put ps.tags t { c with
      sat := satAdd 32 c.sat ev.sat, zero := satAdd 32 c.zero ev.zero,
      invalid := satAdd 32 c.invalid ev.invalid, nanOut := satAdd 16 c.nanOut ev.nanOut } }

/-- A record that failed its CRC counted against tag `t` (R151). -/
def ParcelState.countCrc (ps : ParcelState) (t : Nat) : ParcelState :=
  let c := Sparse.get {} ps.tags t
  { ps with tags := Sparse.put ps.tags t { c with crcBad := satAdd 16 c.crcBad 1 } }

/-! ### SRAM (R41, R172, R174) -/

/-- What an SRAM byte that nothing has written reads as. DESIGN CHOICE (log 6): the manual gives none. -/
def sramDflt (_ : Nat) : Byte := 0

/-- `n` bytes of the parcel's SRAM. -/
def ParcelState.read (ps : ParcelState) (a n : Nat) : List Byte := Mem.read sramDflt ps.sram a n

/-- Whether some byte of a run lies in an 8-byte SRAM word that its code finds uncorrectable (R198). -/
def ParcelState.uncorrectable (ps : ParcelState) (a n : Nat) : Bool := ps.badWords.any (fun w => decide (a / 8 ≤ w ∧ w ≤ (a + n - 1) / 8))

/-- Bytes written to the parcel's SRAM. -/
def ParcelState.write (ps : ParcelState) (a : Nat) (bs : List Byte) : ParcelState :=
  { ps with sram := Mem.write sramDflt ps.sram a bs }

/-- Whether `n` bytes at `a` lie within offsets `lo` to `hi - 1`. -/
def within (a n lo hi : Nat) : Bool := lo ≤ a && a + n ≤ hi

/-- Two byte ranges overlap. -/
def overlap (a n b m : Nat) : Bool := a < b + m && b < a + n && 0 < n && 0 < m

/-- The active lot map's entry for logical lot `i`: the physical lot number where it is valid (R352). -/
def ParcelState.mapEntry (ps : ParcelState) (i : Nat) : Option Nat :=
  let b := (Sparse.get 0 ps.map i).toNat
  if b ≥ 128 && b % 32 < 18 then some (b % 32) else none

/-- Whether a valid active entry names physical lot `l` (R352). -/
def ParcelState.mapped (ps : ParcelState) (l : Nat) : Bool :=
  (List.range 16).any (fun i => ps.mapEntry i == some l)

/-- Whether a load of `n` bytes at `a` is open to the bank (R172). -/
def loadOpen (fw : Bool) (a n : Nat) : Bool := a + n ≤ (if fw then 0x600000 else 0x568000)

/-- Whether a store of `n` bytes at `a` is open to the bank (R172, R82). -/
def ParcelState.storeOpen (ps : ParcelState) (fw : Bool) (a n : Nat) : Bool :=
  within a n 0 0x530000 || within a n 0x550000 (if fw then 0x570000 else 0x568000) ||
  (fw && (List.range 18).any (fun l => within a n (0x570000 + l * 0x8000) (0x578000 + l * 0x8000) && !ps.mapped l))

/-- Whether a unit's run of `n` bytes at `a` lies within the areas of R174. -/
def unitOpen (fw : Bool) (a n : Nat) : Bool :=
  within a n 0 0x530000 || within a n 0x550000 (if fw then 0x570000 else 0x568000)

/-! ### Register banks (R169, R170) -/

/-- g[i] of the running bank; g0 reads 0. -/
def ParcelState.gReg (ps : ParcelState) (i : Nat) : Word :=
  if i = 0 then 0 else Sparse.get 0 (if ps.swp.fw then ps.swp.fg else ps.swp.g) i

/-- The parcel with `v` in g[i] of the running bank; a write to g0 is ignored. -/
def ParcelState.setG (ps : ParcelState) (i : Nat) (v : Word) : ParcelState :=
  if i = 0 then ps
  else if ps.swp.fw then { ps with swp := { ps.swp with fg := Sparse.put ps.swp.fg i v } }
  else { ps with swp := { ps.swp with g := Sparse.put ps.swp.g i v } }

/-- v[i] of the running bank. -/
def ParcelState.vReg (ps : ParcelState) (i : Nat) : VReg :=
  if ps.swp.fw then (if i < 2 then Sparse.get 0 ps.swp.fv i else Config.fwVector i) else Sparse.get 0 ps.swp.v i

/-- The parcel with `x` in v[i] of the running bank; the firmware bank has fv0 and fv1 only. -/
def ParcelState.setV (ps : ParcelState) (i : Nat) (x : VReg) : ParcelState :=
  if ps.swp.fw then (if i < 2 then { ps with swp := { ps.swp with fv := Sparse.put ps.swp.fv i x } } else ps)
  else { ps with swp := { ps.swp with v := Sparse.put ps.swp.v i x } }

/-- The PC of the running bank. -/
def ParcelState.pc (ps : ParcelState) : Nat := if ps.swp.fw then ps.swp.fpc else ps.swp.pc

/-- The parcel with the running bank's PC at `a`. -/
def ParcelState.setPc (ps : ParcelState) (a : Nat) : ParcelState :=
  if ps.swp.fw then { ps with swp := { ps.swp with fpc := a } } else { ps with swp := { ps.swp with pc := a } }

/-! ### Exceptions (R198 to R201) -/

/-- An exception: issue stops; the first one is recorded; the warden is signalled (R199, R200). -/
def ParcelState.raise (ps : ParcelState) (cause unit tag lot epc : Nat) (fw : Bool) : ParcelState :=
  let w := ps.swp
  let w' := if w.exc then { w with stopped := true, halted := true }
    else { w with stopped := true, halted := true, exc := true, cause := cause, excUnit := unit, excTag := tag, excLot := lot,
                  epc := epc / 8 % 2 ^ 20 }
  { ps with swp := w', reports := ps.reports ++ [.exception cause unit lot (epc / 8 % 2 ^ 20) fw] }

/-- A precise exception of the instruction at the PC, whose word carries tag `tag` (R178, R199). -/
def ParcelState.precise (ps : ParcelState) (cause : Nat) (tag : Nat := 0) : ParcelState := ps.raise cause 0 tag 0 ps.pc ps.swp.fw

/-- A data fault reported to the warden. -/
def ParcelState.dataFault (ps : ParcelState) (k : DataFault) (step : Nat) : ParcelState :=
  { ps with reports := ps.reports ++ [.data k step] }

/-! ### Tokens and waits (R205, R190, R228) -/

/-- Outstanding instructions of token counter `k`. -/
def ParcelState.token (ps : ParcelState) (k : Nat) : Nat := Sparse.get 0 ps.tokens k

/-- Image events in queue order (R192). -/
def isFwEvent (e : Word) : Bool := e.toNat ≥ 2 ^ 63

/-- The first element of a list that meets `p`, and the rest. -/
def takeFirst {α : Type} (p : α → Bool) : List α → Option (α × List α)
  | [] => none
  | x :: xs => if p x then some (x, xs) else (takeFirst p xs).map (fun r => (r.1, x :: r.2))

/-- Whether event `e` finds an entry: 64 in all, of which 8 are kept for firmware events (R193). -/
def eventFits (q : List Word) (e : Word) : Bool :=
  q.length < 64 && (isFwEvent e || (q.filter (fun x => !isFwEvent x)).length < 56)

/-- Waiting producers post while entries are free, image events in their order and firmware events in theirs (R193). -/
def admitPosts : List Word → List Word → List Word × List Word
  | q, [] => (q, [])
  | q, e :: es =>
    if eventFits q e then admitPosts (q ++ [e]) es
    else
      let r := admitPosts q es
      (r.1, e :: r.2)

/-- The parcel after wait `w` of the running bank ends, where its condition holds (R190, R228): EVWAIT takes the oldest
image event, and its entry lets a waiting producer in (R193), WAITQ needs its counters at 0, FENCE every counter. -/
def ParcelState.waitDone (ps : ParcelState) : Wait → Option ParcelState
  | .event rd =>
    match takeFirst (fun e => !isFwEvent e) ps.swp.events with
    | some (e, r) =>
      let q := admitPosts r ps.swp.postWaiting
      some ({ ps with swp := { ps.swp with events := q.1, postWaiting := q.2 } }.setG rd e)
    | none => none
  | .tokens m => if (List.range 16).all (fun k => !m.getLsbD k || ps.token k == 0) then some ps else none
  | .fence => if (List.range 16).all (fun k => ps.token k == 0) then some ps else none

/-- Ends the image's wait if its condition holds; not while FW = 1, when the image's registers are not written (R170). -/
def ParcelState.endWait (ps : ParcelState) : ParcelState :=
  match ps.swp.wait with
  | none => ps
  | some w =>
    if ps.swp.fw then ps
    else ({ ps with swp := { ps.swp with wait := none } }.waitDone w).getD ps

/-- Lets waiting producers into the event queue (R193), then ends a wait whose condition holds. -/
def ParcelState.wake (ps : ParcelState) : ParcelState :=
  let r := admitPosts ps.swp.events ps.swp.postWaiting
  ParcelState.endWait { ps with swp := { ps.swp with events := r.1, postWaiting := r.2 } }

/-- An event posted to the sweeper's queue; it waits for an entry where there is none (R192, R193). -/
def ParcelState.post (ps : ParcelState) (e : Word) : ParcelState :=
  ParcelState.wake { ps with swp := { ps.swp with postWaiting := ps.swp.postWaiting ++ [e] } }

/-- A unit instruction completes: its token counter falls, its declared draw is released (R205, R240). -/
def ParcelState.complete (ps : ParcelState) (id : Nat) (tk : BitVec 4) : ParcelState :=
  ParcelState.wake
    { ps with
      tokens := Sparse.put ps.tokens tk.toNat (ps.token tk.toNat - 1)
      meter := { ps.meter with held := ps.meter.held.filter (fun h => h.id ≠ id) } }

/-- Several completions in turn. -/
def ParcelState.completeAll (ps : ParcelState) (l : List (Nat × BitVec 4)) : ParcelState :=
  l.foldl (fun a x => a.complete x.1 x.2) ps

/-! ### Declared draws and admission (R239 to R241, R461 to R464) -/

/-- The default declared draw of class `c`, mA (R239). -/
def defaultDraw (c : Nat) : Nat :=
  match c with
  | 0 => 12 | 1 => 30 | 2 => 36 | 3 => 24 | 4 => 16 | 5 => 14 | 6 => 20
  | 8 => 190 | 9 => 240 | 10 => 280 | 11 => 320 | 12 => 260 | _ => 0

/-- The declared draw of class `c` in the parcel, mA (R612). -/
def ParcelState.draw (ps : ParcelState) (c : Nat) : Nat := Sparse.get (defaultDraw c) ps.cls c

/-- A declared draw scaled for clock mode `m` of R476 (R462). -/
def scaleDraw (m c ma : Nat) : Nat :=
  if c = 3 then ma
  else match m with
    | 1 => (ma * 4 + 2) / 3
    | 2 => (ma * 4 + 4) / 5
    | 3 => (ma + 1) / 2
    | _ => ma

/-- The scaled declared draw of class `c`. -/
def ParcelState.scaledDraw (ps : ParcelState) (c : Nat) : Nat := scaleDraw ps.meter.modeApplied c (ps.draw c)

/-- The draws held: unit instructions in flight, a waiting EVWAIT, WAITQ or FENCE (R240), and 560 mA for each lot that
programs at load (R348) and for each background beat (R358). -/
def ParcelState.drawsHeld (ps : ParcelState) : Nat :=
  (ps.meter.held.map (fun h => ps.scaledDraw h.cls)).sum + (if ps.swp.wait.isSome then ps.scaledDraw 0 else 0) +
    560 * ((ps.lots.filter (fun x => x.2.prog == .programming false)).length + ps.meter.beats.length)

/-- METER_STAT.HELD: base plus scaled draws held, mA (R484). -/
def ParcelState.heldMa (ps : ParcelState) : Nat := 40 + ps.drawsHeld

/-- Whether the meter admits an instruction of class `c` now (R240, R241, R463, R464). -/
def ParcelState.admits (ps : ParcelState) (c : Nat) : Bool :=
  !ps.meter.halt && !ps.meter.guard &&
  (ps.heldMa + ps.scaledDraw c ≤ 10 * ps.meter.eff || ps.drawsHeld == 0)

/-! ### Issue (R176, R194 to R197) -/

/-- What the execution of a sweeper instruction answers: the parcel after it with the next PC, a precise exception, a
full queue, or a dependency that is not met. -/
inductive Issue where
  | done (ps : ParcelState) (pc : Nat)
  | exc (cause : Nat)
  | full
  | dep
deriving DecidableEq, Repr

/-- A stall on the meter: one blocked PCLK (R197, R463). -/
def ParcelState.stallMeter (ps : ParcelState) : ParcelState :=
  { ps with
    swp := { ps.swp with stallMeter := satAdd 32 ps.swp.stallMeter 1 }
    meter := { ps.meter with
      stalledInWindow := true
      guardStall := if ps.meter.guard then satAdd 32 ps.meter.guardStall 1 else ps.meter.guardStall } }

/-- A stall on a full queue: one blocked PCLK (R197, R205). -/
def ParcelState.stallQueue (ps : ParcelState) : ParcelState :=
  { ps with swp := { ps.swp with stallQueue := satAdd 32 ps.swp.stallQueue 1 } }

/-- A stall on a dependency: one blocked PCLK (R197). -/
def ParcelState.stallDep (ps : ParcelState) : ParcelState :=
  { ps with swp := { ps.swp with stallDep := satAdd 32 ps.swp.stallDep 1 } }

/-- A fetch at the PC is barred: FW = 0 and the PC outside image code (R173). -/
def ParcelState.fetchBad (ps : ParcelState) : Bool := !ps.swp.fw && !within ps.swp.pc 8 0x530000 0x550000

/-- Whether a recompute routine runs in the firmware bank (R101). -/
def ParcelState.recomputing (ps : ParcelState) : Bool := ps.swp.fw && ps.swp.fwEvent.toNat / 2 ^ 56 == 0x80

/-- Whether the sweeper can issue: out of reset, not stopped, not fenced, and no earlier instruction waiting in the
running bank (R29, R190, R199). A STOP does not hold a recompute routine (R28, R106). -/
def ParcelState.ready (ps : ParcelState) : Bool :=
  !ps.swp.inReset && !ps.swp.halted && (!ps.swp.stopped || ps.recomputing) && !ps.health.bollard &&
    (ps.swp.fw || ps.swp.wait.isNone)

/-- The end of an instruction that issued: the PC moves on, ISSUED counts, and the meter notes a window in which the
draws passed 15/16 of RE (R194, R202, R477). -/
def ParcelState.issued (ps : ParcelState) (held c pc : Nat) : ParcelState :=
  let ps' := ps.setPc pc
  { ps' with
    swp := { ps'.swp with issued := satAdd 32 ps'.swp.issued 1 }
    meter := { ps'.meter with
      overInWindow := ps'.meter.overInWindow || decide (16 * (held + ps'.scaledDraw c) > 150 * ps'.meter.eff) } }

/-- The issue of the instruction at the PC, of current class `c` (R173, R179, R194, R197, R199): `illegal` says that its
word is reserved; `k` is its execution; `tag` is the tag its word carries. One blocked PCLK counts in one stall counter, queue before
meter. -/
def ParcelState.issue (ps : ParcelState) (c : Nat) (illegal : Bool) (k : ParcelState → Issue) (tag : Nat := 0) : ParcelState :=
  if !ps.ready then ps
  else if ps.fetchBad then ps.precise 11 tag
  else if illegal then ps.precise 1 tag
  else match k ps with
    | .exc cause => ps.precise cause tag
    | .full => ps.stallQueue
    | .dep => ps.stallDep
    | .done ps' pc => if ps.admits c then ps'.issued ps.heldMa c pc else ps.stallMeter

/-- The PC of the next instruction in sequence. -/
def ParcelState.next (ps : ParcelState) : Nat := (ps.pc + 8) % 2 ^ 64

/-- EVWAIT, WAITQ or FENCE: it waits from its issue on; a wait whose condition holds ends at once. In the firmware bank it
is tried again until its condition holds. -/
def ParcelState.issueWait (ps : ParcelState) (w : Wait) : Issue :=
  if ps.swp.fw then
    match ps.waitDone w with
    | some ps' => .done ps' ps.next
    | none => .dep
  else .done (ParcelState.endWait { ps with swp := { ps.swp with wait := some w } }) ps.next

/-- The issue of a unit instruction: its token counter must have room (R205); it gets the parcel's next number, its
token and its declared draw (R240). `room` is whether its unit's queue has a free entry, `push` puts it there. -/
def ParcelState.issueUnit (ps : ParcelState) (c : Nat) (tk : BitVec 4) (room : Bool)
    (push : ParcelState → Nat → ParcelState) : Issue :=
  if ps.token tk.toNat ≥ 255 || !room then .full
  else
    let id := ps.nextId
    .done (push { ps with
      nextId := id + 1
      tokens := Sparse.put ps.tokens tk.toNat (ps.token tk.toNat + 1)
      meter := { ps.meter with held := ps.meter.held ++ [{ id := id, cls := c }] } } id) ps.next

end Sys2Proof.Machine
end

