-- ==== Sys2Proof/Machine/Engine.lean ====
section
/-!
DEFINITION. The state of the engine outside its parcels: districts, power, clocks, coolant, stacks, loading, serving,
fabric, calibration, faults, security, management and test access. Plain data; every field cites the rule that names it.
Field defaults are the reset values of the field maps.
-/
namespace Sys2Proof.Machine

/-! ### Engine core (R7, R8, R34 to R40, R385 to R389) -/

/-- LW3-A56 or LW3-B48 (R5, R7). -/
inductive Grade where
  | a56 | b48
deriving DecidableEq, Repr, Inhabited

/-- The engine states (R385, R389). -/
inductive EngSt where
  | off | boot | standby | loaded | serving | draining | fault
deriving DecidableEq, Repr, Inhabited

/-- Where a reply goes: transaction and source of the command, version, port kind, and the counter of its trailer where it
had one (R577, R620). -/
structure ReplyTo where
  xid : BitVec 64
  src : Nat
  v1 : Bool
  onMgmt : Bool
  ctr : Option (BitVec 64)
deriving DecidableEq, Repr, Inhabited

/-- A management command whose log record is held: its counter, tag and reply (R35, R40). -/
structure CmdRec where
  ctr : BitVec 64
  tag : BitVec 256
  reply : List Byte
deriving DecidableEq, Repr, Inhabited

/-- The registry and deputy roles, engine state and command log. `hbMissed` counts the deputy's missed heartbeats, `wardenMissed` those
of each district. `snapshot` is true while a new deputy receives its copy (R39); `ckpt` lists the records written to the checkpoint
region (R36); `drainFrom` is the engine time at which the drain limit of `drainMs` milliseconds was accepted (R386). -/
structure Core where
  st : EngSt := .off
  cause : Nat := 0
  air : Bool := false
  strapPin : Bool := false
  registry : Nat := 0
  deputy : Nat := 0
  epoch : Nat := 0
  depValid : Bool := false
  snapshot : Bool := false
  hbMissed : Nat := 0
  drainMs : Option Nat := none
  drainFrom : Nat := 0
  cmdLog : List CmdRec := []
  logNext : Nat := 0
  ckpt : List Nat := []
deriving DecidableEq, Repr

/-- Boot (R594 to R601). `step` is the step of R594 in progress or last completed; `fwStore` the bytes that the wardens have loaded
into the 64 KiB firmware store of every sweeper (R171, R583). -/
structure Boot where
  step : Nat := 1
  cause : Nat := 0
  warm : Bool := false
  fallback : Bool := false
  warmResets : Nat := 0
  toStandby : Nat := 0
  announced : List Nat := []
  fwBad : List Nat := []
  probeFail : List Nat := []
  fwStore : List Byte := []
  t0 : Nat := 0
deriving DecidableEq, Repr

/-! ### Clocks and time (16, R447) -/

/-- The clock mesh: root cycle in the window, windows counted, FCLK frame counter, whether the sync edge has started
them (R493, R496), the reference inputs (R488, R503). -/
structure Clk where
  root : Nat := 0
  window : Nat := 0
  fclk : Nat := 0
  frame : Nat := 0
  sync : Bool := false
  ref0Ok : Bool := false
  ref1Ok : Bool := false
  sel : Nat := 3
  lock : Bool := false
  anchor : Nat := 0
  refSwitch : Nat := 0
deriving DecidableEq, Repr

/-- Engine time (R447, R448, R451). `cycles` counts the root cycles since power-on; `offset` is the last one measured, of the engine
against its source; `slew` what of it is still to be removed by slewing. -/
structure Time where
  ns : Nat := 0
  cycles : Nat := 0
  offset : Int := 0
  slew : Int := 0
  srcPort : Nat := 0xFF
  sync : Bool := false
deriving DecidableEq, Repr

/-! ### Power tile (15) -/

/-- A power reservation of R478: its district and milliwatts. -/
structure Reserve where
  d : Nat
  mw : Nat
deriving DecidableEq, Repr, Inhabited

/-- The power tile (R453, R466 to R469, R478, R486). Watts are whole, VIN counts 10 mV and IIN 0.1 A; `energy` counts nanojoules,
what VIN times IIN is over a microsecond; `capUnmet` is the time of the last CAP_UNMET while the cap is unmet. -/
structure Pwr where
  vin : Nat := 0
  iin : Nat := 0
  p1ms : Nat := 0
  pmax : Nat := 0
  energy : Nat := 0
  cap : Nat := 20000
  sCap : Nat := 256
  capUnmet : Option Nat := none
  capSteps : Nat := 0
  fastLimit : Nat := 0
  busyPower : Nat := 0
  phaseLost : Nat := 0
  reserves : List Reserve := []
deriving DecidableEq, Repr

/-! ### Districts -/

/-- The district power states with the codes of R470. -/
inductive PSt where
  | active | idle | spare | retain | dark | tripped
deriving DecidableEq, Repr, Inhabited

/-- One sensor site (R504 to R506): whether A and B have failed, whether they disagree, and the site's reading. -/
structure Site where
  aFail : Bool := false
  bFail : Bool := false
  disagree : Bool := false
  temp : Int := 0
deriving DecidableEq, Repr, Inhabited

/-- A switch-on in progress (R478, R479): target state, whether its test and probe have passed, and the time of its start. -/
structure SwitchOn where
  target : PSt
  probed : Bool := false
  since : Nat := 0
deriving DecidableEq, Repr, Inhabited

/-- An entry of a district's lock table: a page open for appends, its step, and the parcel that holds it (R547). -/
structure PageLock where
  slot : Nat
  layer : Nat
  head : Nat
  n : Nat
  step : Nat
  parcel : Nat
deriving DecidableEq, Repr, Inhabited

/-- One district. `granted` says that the registry moved it from SPARE to ACTIVE (R473); `hole` that it is a hole although its
routers have power (R273, R528, R558); `routerFault` that it stays one until it is DARK; `faultBase` the holes for which its warden's
single-fault set was made (R274). -/
structure DistState where
  st : PSt := .dark
  cause : Nat := 0
  busy : Bool := false
  target : PSt := .dark
  mode : Nat := 0
  switchOn : Option SwitchOn := none
  replyTo : Option ReplyTo := none
  iNow : Nat := 0
  peak : Nat := 0
  trips : Nat := 0
  suspect : BitVec 16 := 0
  worst : Nat := 0
  padCounts : Sparse Nat := []
  phaseErr : Int := 0
  mask : Nat := 0
  aligned : Bool := false
  nodeFail : Bool := false
  nodeLock : Bool := false
  lockBarred : Bool := false
  sites : Sparse Site := []
  tMax : Int := 0
  tSite : Int := 0
  sTherm : Nat := 256
  notice : Bool := false
  trip115 : Nat := 0
  proxyBy : Nat := 63
  proxyFor0 : Nat := 63
  proxyFor1 : Nat := 63
  retired : Bool := false
  routerFault : Bool := false
  faultBase : List Nat := []
  live : Bool := false
  hbMissed : Nat := 0
  staleEpoch : Nat := 0
  badSource : Nat := 0
  epochSeen : Nat := 0
  detour : Sparse (BitVec 32) := []
  locks : List PageLock := []
  benchBad : Bool := false
  hole : Bool := false
  granted : Bool := false
deriving DecidableEq, Repr

/-! ### Coolant (17 R509 to R522) -/

/-- One coolant sensor pair: readings in hundredths of a degree, failures, disagreement. -/
structure CoolPair where
  aFail : Bool := false
  bFail : Bool := false
  disagree : Bool := false
  temp : Int := 0
deriving DecidableEq, Repr, Inhabited

/-- Coolant and the facility interface. Flow in tenths of a litre per minute; `inlet` and `outlet` are the pairs at the IN and the
OUT port. -/
structure Cool where
  flow : Int := 0
  setpoint : Nat := 360
  valve : Nat := 0
  dest : BitVec 128 := 0
  destPort : Nat := 0
  inlet : CoolPair := {}
  outlet : CoolPair := {}
  lost : Bool := false
  reversed : Bool := false
  belowMin : Bool := false
  low80 : Bool := false
  leak : Bool := false
  leakFail : Bool := false
  valveSat : Bool := false
  switchOpen : Bool := false
  switchFail : Bool := false
  flowFail : Bool := false
  inletRange : Bool := false
  sFlow : Nat := 256
  p100 : Nat := 0
  p1s : Nat := 0
  seq : Nat := 0
  notices : Nat := 0
  thrSteps : Nat := 0
  disagree : Nat := 0
  sensFail : Nat := 0
deriving DecidableEq, Repr

/-! ### Lanes at engine level (09) -/

/-- A plan flow (R247, R250, R255, R298): its key, its runs (start and length), the slip each run was placed with, whether
it is demoted, and where it is placed again the frame from which its new reservations hold. -/
structure PlanFlow where
  src : Nat
  dst : Nat
  ch : Nat
  runs : List (Nat × Nat)
  slips : List Nat := []
  demoted : Bool := false
  from_ : Option Nat := none
deriving DecidableEq, Repr, Inhabited

/-- A multicast tree (R232, R250, R280): root and members as logical parcels. -/
structure Tree where
  root : Nat
  members : List Nat
deriving DecidableEq, Repr, Inhabited

/-- One replication of a tree: at router `r` (its key) a flit arriving in leg `leg` is copied to output `out` in leg `leg'`
(R287). -/
structure TreeHop where
  r : Nat
  leg : Nat
  out : Nat
  legOut : Nat
deriving DecidableEq, Repr, Inhabited

/-- A tree as the routers hold it, and the members its union of routes cannot reach (R287, R288). -/
structure TreeRoute where
  hops : List TreeHop := []
  unicast : List Nat := []
deriving DecidableEq, Repr, Inhabited

/-- A pass whose boundary the engine has crossed: its step, the replays of it before, and the layers that run streamed in it (R45). -/
structure PassRun where
  num : Nat
  run : Nat
  streamed : List Nat
deriving DecidableEq, Repr, Inhabited

/-- The lanes: flits in flight, the next flit number, the placement of logical parcels (R277), plan flows, trees, holes
and replacement sets; `treesDue` says that trees are to be rebuilt at the next pass boundary (R287), `passes` lists the passes of open
steps. -/
structure Net where
  flits : List Flit := []
  nextFlit : Nat := 0
  place : Sparse Pid := []
  placeNext : Option (Sparse Pid) := none
  plan : List PlanFlow := []
  trees : Sparse Tree := []
  routes : Sparse TreeRoute := []
  treesDue : Bool := false
  passes : List PassRun := []
  holes : List Nat := []
  unreach : Nat := 0
  ease : Sparse Nat := []
  maxG : Nat := 0
  maxSlip : Nat := 0
deriving DecidableEq, Repr

/-! ### Memory stacks (12) -/

/-- A key slot of the load queues (R336, R337): the key and the NONCE of its deed. -/
structure KeySlot where
  key : BitVec 128 := 0
  nonce : BitVec 64 := 0
deriving DecidableEq, Repr, Inhabited

/-- An acknowledgement counter of a controller: for a source, the writes acknowledged and not yet told to it, and how many of them used a
pool credit (R293, R379). -/
structure AckCtr where
  k : StackId
  src : Endpoint
  os : List WriteOrigin
  back : Nat
deriving DecidableEq, Repr

/-- The stacks and their controllers: contents, the bytes that stand otherwise in a stack than the erasure code says (`bad`), lost stacks
(`lost`), those of them lost for want of a route only (`routeLost`, R372), counters, free pool entries (R379), the records that could not be
rebuilt (R370), key slots 0 to 17, acknowledgement counters, and the share turns of each controller (key 2 k, and 2 k + 1 for the tenants of
class 1; R383). Parity follows from the contents (R368). -/
structure Stacks where
  mem : Mem := []
  bad : Sparse Byte := []
  lost : List Nat := []
  recon : Nat := 0
  located : Nat := 0
  erased : Nat := 0
  routeLost : List Nat := []
  pools : Sparse Nat := []
  lostRecs : List Nat := []
  keys : Sparse KeySlot := []
  acks : List AckCtr := []
  turns : Sparse Turn := []
deriving DecidableEq, Repr

end Sys2Proof.Machine
end

