-- ==== Sys2Proof/Machine/Fabric.lean ====
section
/-!
DEFINITION. The state of the Ethernet ports, of Avenue and of the RDMA connections (14 R423 to R451), and the messages
that leave the engine. Plain data; defaults are the reset values.
-/
namespace Sys2Proof.Machine

/-- One data port (R423, R425, R451; 18 R536): mode, links up, inverted lanes, lanes without signal, eye widths in 1/64 UI,
oscillator failed (R501), remote pause held for more than 1 ms with its spilled frames (R294, R382); what is still to be written to its
spill area, as stack addresses and records, and the write credits it holds (R293). -/
structure Port where
  mode : Nat := 0
  linkUp : BitVec 8 := 0
  pol : BitVec 8 := 0
  laneBad : BitVec 8 := 0
  eyes : Sparse (BitVec 8) := []
  oscFail : Bool := false
  paused : Bool := false
  pauseSince : Nat := 0
  spilled : List Nat := []
  spillQueue : List (Nat × List Byte) := []
  writeCredits : Sparse Nat := []
  poolCredits : Sparse Nat := []
deriving DecidableEq, Repr, Inhabited

/-- A message to a peer that is not acknowledged (R434): its number, bytes, the link that carried it, how often it was
resent, whether it has left, whether its port wrote it to the spill area, and its place in the order of sending (R435). -/
structure Unacked where
  mseq : Nat
  bytes : List Byte
  link : Nat
  resent : Nat := 0
  sent : Bool := true
  spilled : Bool := false
  order : Nat := 0
deriving DecidableEq, Repr, Inhabited

/-- The state kept for one peer engine (R434, R437). `rxCum` is the cumulative MSEQ received, `rxAbove` those received
above it. -/
structure Peer where
  probed : Bool := false
  txNext : Nat := 0
  unacked : List Unacked := []
  rxCum : Nat := 0xFFFFFFFF
  rxAbove : List Nat := []
  ackDue : Bool := false
  path : Nat := 0
  unreach : Bool := false
deriving DecidableEq, Repr, Inhabited

/-- An RDMA write that is not acknowledged by its client (R398, R445); `sent` is false while it has not left for want of a live
link that is not paused. -/
structure RcWrite where
  psn : Nat
  addr : Nat
  rkey : Nat
  bytes : List Byte
  sent : Bool := true
deriving DecidableEq, Repr, Inhabited

/-- The RC connection of a ring (R443 to R446). `rate` is the sending rate in 1/4096 of link rate; `retries` counts the
expired ACK timeouts since the last acknowledgement. -/
structure Conn where
  bound : Bool := false
  failed : Bool := false
  clientIp : BitVec 128 := 0
  clientQpn : Nat := 0
  qpn : Nat := 0
  rkey : Nat := 0
  mtu : Nat := 0
  psnOut : Nat := 0
  psnIn : Nat := 0
  rate : Nat := 4096
  link : Nat := 128
  unacked : List RcWrite := []
  retries : Nat := 0
  paused : Bool := false
deriving DecidableEq, Repr, Inhabited

/-- The fabric of the engine (R426, R427, R451); `sends` counts the messages sent, which gives them their order (R435). -/
structure Fabric where
  ok : Bool := false
  prio : Nat := 0
  domain : Nat := 0
  encap : Nat := 0
  engineId : Nat := 0x3FFF
  ipPrefix : BitVec 96 := 0
  qKey : BitVec 32 := 0
  ip0 : BitVec 128 := 0
  ip1 : BitVec 128 := 0
  ports : Sparse Port := []
  peers : Sparse Peer := []
  conns : Sparse Conn := []
  sends : Nat := 0
  retx : Nat := 0
  dupDrop : Nat := 0
  badHdr : Nat := 0
  linkDown : Nat := 0
  unreach : Nat := 0
deriving DecidableEq, Repr

/-- The frame that carries an Avenue message (R428, R431, R437): raw Ethernet, with its MAC addresses, the PRIO of its 802.1Q tag and its
EtherType; or RoCEv2 UD, with its IPv6 addresses, UDP ports, destination QP and the Q_KEY of its DETH. -/
inductive AveFrame where
  | raw (src dst : BitVec 48) (prio : Nat) (etherType : Nat)
  | ud (src dst : BitVec 128) (udpSrc udpDst qp : Nat) (qKey : BitVec 32)
deriving DecidableEq, Repr

/-- The ends of an RC packet: the engine address, the client's, and the client's QPN (R428, R443). -/
structure RcAddr where
  src : BitVec 128
  dst : BitVec 128
  qp : Nat
deriving DecidableEq, Repr

/-- What leaves the engine on a connector: an Avenue v2 message on a link in its frame; a management message (R616) to a host under an
XID, in v1 or v2, on a management port or a data link; an RDMA write; the answer to an RDMA read; a NAK (1 invalid request, 2 remote
access error); a CNP (R445); a BOOT_STATUS frame on a management port (16 or 17); a power forecast; bits on TDO. -/
inductive OutMsg where
  | ave (link : Nat) (frame : AveFrame) (bytes : List Byte)
  | mgmt (dst : Nat) (v1 onMgmt : Bool) (xid : Word) (bytes : List Byte)
  | rdmaWrite (ring : Nat) (peer : RcAddr) (psn addr rkey : Nat) (bytes : List Byte)
  | rdmaRead (ring : Nat) (peer : RcAddr) (bytes : List Byte)
  | nak (ring : Nat) (peer : RcAddr) (kind : Nat)
  | cnp (ring : Nat) (peer : RcAddr)
  | bootStatus (port : Nat) (bytes : List Byte)
  | forecast (dest : BitVec 128) (port : Nat) (bytes : List Byte)
  | tdo (bits : List Bool)
deriving DecidableEq, Repr

end Sys2Proof.Machine
end

