-- ==== Sys2Proof/Machine/Admin.lean ====
section
/-!
DEFINITION. The state of calibration, fault log, security, management, test access, and what the module keeps without
power (18 R537 to R542; 19 R566 to R569; 20 R574 to R591; 21 R592; 22 R606, R615). Plain data; defaults are the reset
values.
-/
namespace Sys2Proof.Machine

/-! ### Module flash and fuses (R537 to R540, R578, R579, R583 to R585, R592, R593) -/

/-- A structure kept in two copies with their write counts and whether each is valid (R537). -/
structure Copies (α : Type) where
  aOk : Bool := true
  bOk : Bool := true
  aSeq : Nat := 0
  bSeq : Nat := 0
  a : α
  b : α
deriving DecidableEq, Repr

/-- A lot entry of a district record (R538). -/
structure LotRec where
  rowRemap : Sparse Word := []
  colRemap : Sparse Word := []
  resid : Nat := 0
  retired : Bool := false
  failedLast : Bool := false
  adc : Nat := 0
  count : Nat := 0
deriving DecidableEq, Repr, Inhabited

/-- A parcel entry of a district record (R538): voltage codes for divisors 3, 4, 5 and 8. -/
structure ParcelRec where
  v3 : Nat := 60
  v4 : Nat := 60
  v5 : Nat := 60
  v8 : Nat := 60
  retired : Bool := false
  fails : Nat := 0
  lots : Sparse LotRec := []
deriving DecidableEq, Repr, Inhabited

/-- The body of a district record (R538): parcels, and the failed wires of its 48 ring-road links where any failed. Up to 16 are
replaced by spare wires; with more the link runs at half width (R261). -/
structure DistRec where
  parcels : Sparse ParcelRec := []
  wires : Sparse Nat := []
deriving DecidableEq, Repr, Inhabited

/-- An entry of the generation record (R579). -/
structure GenEntry where
  pub : BitVec 256
  model : Word
  gen : Word
deriving DecidableEq, Repr, Inhabited

/-- What FABRIC_SET_CONFIG stores (R426). -/
structure FabricCfg where
  engineId : Nat
  encap : Nat
  prio : Nat
  domain : Nat
  modes : List Nat
  ipPrefix : BitVec 96
  qKey : BitVec 32
  ip0 : BitVec 128
  ip1 : BitVec 128
deriving DecidableEq, Repr, Inhabited

/-- What keeps state without power but the lot cells: fuses and module flash (R592). A bundle slot holds the bundle of manufacture
(`factoryA`, `factoryB`) until it is first written; bytes not written since then read 0xFF. `svnFuse` counts unary bits. -/
structure Nv where
  grade : Grade := .a56
  stepping : Nat := 0
  fused : BitVec 60 := 0
  serial : Word := 1
  svnFuse : Nat := 0
  debugEver : Bool := false
  owner : Option (BitVec 512) := none
  mkey : Option (BitVec 256) := none
  floor : Nat := 0
  trust : Copies (List (BitVec 512)) := { a := [], b := [] }
  gens : Copies (List GenEntry) := { a := [], b := [] }
  fabric : Option FabricCfg := none
  fabricOk : Bool := true
  factoryA : Bool := true
  factoryB : Bool := true
  slotA : Mem := []
  slotB : Mem := []
  activeB : Bool := false
  pendingSlot : Option Bool := none
  calDist : Sparse (Copies DistRec) := []
  calPort : Sparse (Copies (Sparse (BitVec 8))) := []
  calEng : Copies (BitVec 60) := { a := 0, b := 0 }
  flog : List (List Byte) := []
deriving DecidableEq, Repr

/-! ### Security (R576, R577, R587, R591) -/

/-- The security block and command authentication: bundle SVN and slot that run, TAMPER, DEBUG, counters, the engine's event
counter, the last accepted command counter, the TAP challenge in use. -/
structure Sec where
  svn : Nat := 0
  slotB : Bool := false
  tamper : Bool := false
  debug : Bool := false
  authFail : Nat := 0
  jtagDeny : Nat := 0
  evCtr : Nat := 0
  lastCtr : Nat := 0
  challenge : Option (List Byte) := none
deriving DecidableEq, Repr

/-! ### Management messages (R606, R615, R619, R620) -/

/-- A message that awaits fragments: transaction, source, TOTAL, the fragments held (offset and bytes). -/
structure Reasm where
  xid : Word
  src : Nat
  total : Nat
  v1 : Bool
  onMgmt : Bool
  parts : List (Nat × List Byte)
deriving DecidableEq, Repr, Inhabited

/-- Where a command came from: source, version, whether over a management port. -/
structure MgmtSrc where
  src : Nat
  v1 : Bool
  onMgmt : Bool
deriving DecidableEq, Repr, Inhabited

/-- Reassembly, the source of the most recent command past step 2 (R619), and the shadows of RC fields, each under eight
times its register's address in words plus the field's number (R606). -/
structure Mgmt where
  reasm : List Reasm := []
  last : Option MgmtSrc := none
  shadows : Sparse Nat := []
deriving DecidableEq, Repr

/-! ### Calibration (R525, R526, R542) -/

/-- A traverse in progress: its number, scope and units; `own` says that the registry started it for a load or a rewrite, `todo` gives the
links that a PORT traverse has still to take down (R529). -/
structure Trav where
  id : Nat
  scope : Nat
  d : Nat
  parcel : Nat
  lot : Nat
  port : Nat
  own : Bool := false
  todo : List Nat := []
deriving DecidableEq, Repr, Inhabited

/-- Calibration at engine level. -/
structure Cal where
  traverses : Nat := 0
  travFail : Nat := 0
  residDue : Nat := 0
  calBad : Nat := 0
  flashFail : Bool := false
  active : List Trav := []
  next : Nat := 0
deriving DecidableEq, Repr

/-! ### Fault log and recovery (R554, R560, R561, R566, R569) -/

/-- A logical parcel of a district whose work is being moved to a district in SPARE (R472, R559): the district it comes from and
the parcel it goes to. -/
structure Restore where
  from_ : Nat
  lp : Nat
  p : Pid
deriving DecidableEq, Repr, Inhabited

/-- The fault log and recovery counters. `count` is the number of entries since power-on; `covered` the logical parcels on
covers with the district they came from; `unhosted` those that nothing hosts. -/
structure Recov where
  count : Nat := 0
  dropped : Nat := 0
  evacuations : Nat := 0
  swaps : Nat := 0
  wardensLost : Nat := 0
  maxResume : Nat := 0
  covered : List (Nat × Nat) := []
  unhosted : List Nat := []
  restoring : List Restore := []
  faultSince : Option Nat := none
deriving DecidableEq, Repr

/-! ### Test access port (R586, R587) -/

/-- The instruction the TAP holds. -/
inductive TapIr where
  | bypass | idcode | sample | extest | intest
deriving DecidableEq, Repr, Inhabited

/-- The TAP: instruction, bypass bit, boundary register. PRESUMED (log 7): as IEEE 1149.1 has it, IDCODE is selected after a reset. -/
structure Tap where
  ir : TapIr := .idcode
  bypass : Bool := false
  boundary : List Bool := []
deriving DecidableEq, Repr

end Sys2Proof.Machine
end

