-- ==== Sys2Proof/Machine/Model.lean ====
section
/-!
DEFINITION. The state of loading, of the loaded model and of serving (08 R254 to R257; 11 R331 to R364; 13 R391 to R422).
Plain data; defaults are the reset values.
-/
namespace Sys2Proof.Machine

/-! ### Deeds and segments (R331, R332, R343) -/

/-- A segment entry of a deed with the stack address of the kept segment (R332, R343). -/
structure SegEntry where
  kind : Nat := 0
  flags : Nat := 0
  target : Nat := 0
  parcel : Nat := 0
  offset : Nat := 0
  records : Nat := 0
  tag : BitVec 128 := 0
  digest : List Byte := []
  head : List Byte := []
  addr : Nat := 0
deriving DecidableEq, Repr, Inhabited

/-- The fields of a deed (R331). -/
structure Deed where
  nengine : Nat := 0
  nseg : Nat := 0
  modelId : Nat := 0
  generation : Nat := 0
  nonce : Nat := 0
  pubId : List Byte := []
  baseId : Nat := 0
  baseGen : Nat := 0
  segs : List SegEntry := []
deriving DecidableEq, Repr, Inhabited

/-- What programming a lot needs: the parcel, the physical lot, its logical number, the segment, and the settings of its lot
map entry (R256, R346). `rewrite` says that it is a rewrite in service, `map` that the lot is to serve the logical lot
afterwards; `tried` lists the lots whose outlier list it has overflowed (R87). -/
structure LotJob where
  lp : Nat
  p : Pid
  l : LotId
  logical : Nat
  seg : Nat
  thresh : Nat
  driftMode : Nat
  rewrite : Bool
  map : Bool := true
  tried : List Nat := []
  programmed : Bool := false
  traversed : Bool := false
deriving DecidableEq, Repr, Inhabited

/-- A load in progress and the load registers (R338 to R343, R364). `got` counts the records received of each segment,
`deedRecs` those of the deed; `ended` is the final status once the load is over and LOAD_DONE is due. -/
structure Load where
  phase : Nat := 0
  kind : Nat := 0
  slot : Nat := 0
  tenant : Nat := 0
  ordinal : Nat := 0
  next : Nat := 0x3FFF
  deedDigest : BitVec 256 := 0
  envelope : List Byte := []
  tenants : List TenantOp := []
  deedBytes : List Byte := []
  deedRecs : Nat := 0
  ended : Option Nat := none
  deed : Option Deed := none
  got : Sparse Nat := []
  verified : List Nat := []
  jobs : List LotJob := []
  spread : Nat := 0
  lastStatus : Nat := 0
  segDone : Nat := 0
  lotsDone : Nat := 0
  lotsSpared : Nat := 0
  demoted : Nat := 0
  slip : Nat := 0
deriving DecidableEq, Repr

/-! ### The loaded model (R254 to R256, R354, R400) -/

/-- A layer of the image (R255 kind 4). -/
structure LayerEnt where
  index : Nat
  streamed : Bool
  slotNs : Nat
  streamNs : Nat
  records : Nat
  share : Nat
deriving DecidableEq, Repr, Inhabited

/-- A valid lot map entry of the image (R256). -/
structure LotEnt where
  lp : Nat
  lot : Nat
  layer : Nat
  seg : Nat
  thresh : Nat
  driftMode : Nat
deriving DecidableEq, Repr, Inhabited

/-- A parcel of the image (R255 kind 3): role, head group, offset, descriptors. -/
structure ParcelEnt where
  role : Nat
  hgFirst : Nat
  hgSize : Nat
  hgPos : Nat
  offset : Nat
  descs : List (Nat × Nat)
deriving DecidableEq, Repr, Inhabited

/-- The header of the VOCAB segment (R400); tokens and pool stay in the stacks at `addr`. -/
structure Vocab where
  addr : Nat := 0
  nvocab : Nat := 0
  nspec : Nat := 0
  ends : List Nat := []
  maxContext : Nat := 0
  stepRows : Nat := 256
  pool : Nat := 0
  tree : List (Nat × Nat) := []
deriving DecidableEq, Repr, Inhabited

/-- An adapter slot that is loaded (R360 to R362). -/
structure Adapter where
  tenant : Nat := 0
  digest : BitVec 256 := 0
  segs : List SegEntry := []
  placed : Bool := false
  released : Bool := false
deriving DecidableEq, Repr, Inhabited

/-- The model that is loaded. `streamed` lists the layers that run streamed in this pass, `hostMode` the modes the host set,
`forced` the layers that a rewrite keeps streamed (R354, R355, R359); `loads` counts base-model loads and `secret` is the value
drawn at the last (R418). `slots` holds the streamed slot in force, in ns, of each layer that runs streamed (R46, R253). -/
structure Model where
  loaded : Bool := false
  ordinal : Nat := 0
  next : Nat := 0x3FFF
  nengine : Nat := 0
  digest : BitVec 256 := 0
  modelId : Nat := 0
  generation : Nat := 0
  nparcel : Nat := 0
  ndist : Nat := 0
  kvShare : Nat := 0
  fallbackShare : Nat := 0
  segs : List SegEntry := []
  layers : List LayerEnt := []
  lots : List LotEnt := []
  parcels : List ParcelEnt := []
  vocab : Vocab := {}
  lostSegs : List Nat := []
  streamed : List Nat := []
  slots : Sparse Nat := []
  hostMode : Sparse Bool := []
  forced : List Nat := []
  rewriting : List LotJob := []
  adapters : Sparse Adapter := []
  loads : Nat := 0
  secret : BitVec 256 := 0
deriving DecidableEq, Repr

/-! ### Serving (R391 to R422) -/

/-- A tenant (R391). -/
structure Tenant where
  ease : Nat := 0
  enabled : Bool := false
  maxReq : Nat := 0
  pages : Nat := 0
  rings : BitVec 128 := 0
  maxPins : Nat := 0
deriving DecidableEq, Repr, Inhabited

/-- A KV slot of this owner (R304, R402, R418): its committed length, its generation, whether it is in use, and the slot of the
prefix it was opened from. -/
structure Slot where
  used : Bool := false
  len : Nat := 0
  gen : Nat := 0
  from_ : Option Nat := none
deriving DecidableEq, Repr, Inhabited

/-- A pinned prefix (R326, R418, R419). `dropping` says that its release takes effect at the next commit point (R328). -/
structure Prefix where
  slot : Nat
  tenant : Nat
  adapter : Nat
  tokens : List Nat
  handle : Word
  dropping : Bool := false
deriving DecidableEq, Repr, Inhabited

/-- A request: the fields of its entry (R394), where it stands, and what has been delivered (R397, R399, R417). `prompt` holds the
prefix's tokens and the prompt tokens committed, `fed` counts the latter, `base` the prefix positions; `chain` are the tokens delivered
at its last commit, `cands` the candidate of each tree node; `end_` is the completion decided for it outside a step. -/
structure Request where
  ring : Nat
  entry : Nat
  id : Word
  seed : Word
  deadline : Nat
  promptOff : Nat
  promptLen : Nat
  prompt : List Nat
  prefixSlot : Option Nat
  base : Nat
  outAddr : Nat
  outRkey : Nat
  outEntries : Nat
  maxTokens : Nat
  method : Nat
  spec : Nat
  adapter : Nat
  flags : Nat
  temperature : F32
  topK : Nat
  repWindow : Nat
  topP : F32
  repPenalty : F32
  stops : List Nat
  tenant : Nat
  slot : Nat
  fed : Nat := 0
  out : List Nat := []
  chain : List Nat := []
  cands : Sparse Nat := []
  seq : Nat := 0
  text : List Byte := []
  accepted : Nat := 0
  firstTime : Nat := 0
  pinned : Bool := false
  prefixHandle : Word := 0
  inStep : Option Nat := none
  cancel : Option Nat := none
  end_ : Option Nat := none
deriving DecidableEq, Repr, Inhabited

/-- A request record that completed, kept to answer late cancels (R409): ring, entry index, identifier, output ring, next
SEQ. -/
structure Finished where
  ring : Nat
  entry : Nat
  id : Word
  outAddr : Nat
  outEntries : Nat
  outRkey : Nat
  seq : Nat
deriving DecidableEq, Repr, Inhabited

/-- A row of a step (R404). -/
structure Row where
  token : Nat
  pos : Nat
  store : Nat
  slot : Nat
  b : Nat
  sample : Bool
  tree : Bool
  parent : Nat
  adapter : Nat
  tenant : Nat
  node : Nat := 0
deriving DecidableEq, Repr, Inhabited

/-- The outcome of a request of a step (R408): tokens delivered, the new committed length, and the completion status and
reason where it completes. -/
structure Outcome where
  ring : Nat
  entry : Nat
  slot : Nat
  tokens : List Nat
  len : Nat
  status : Option Nat
  reason : Nat
deriving DecidableEq, Repr, Inhabited

/-- A step that is open at this engine (R403 to R411). `need` is NROWS, `record` the number of its log record. `doneFrom` lists the
ordinals whose STEP_DONE has come; `samples` the token of each SAMPLE row, `nan` the rows whose token is no token of the vocabulary or
whose logits are all −∞; `tc` is T_c once decided, `commitRec` the number of the commit record that is then written and `commitAcked`
that the deputy holds it (R406); `image` the (cause, EPC) of the image faults of its last run that had some; `spoiled` says that a fault
calls for a replay. -/
structure Step where
  num : Nat
  owner : Nat
  desc : Nat
  rows : List Row
  reqs : List (Nat × Nat)
  lens : List (Nat × Nat)
  need : Nat := 0
  record : Nat := 0
  doneFrom : List Nat := []
  doneSent : Bool := false
  logAcked : Bool := false
  samples : List (Nat × Nat) := []
  nan : List Nat := []
  tc : Option Nat := none
  outcomes : List Outcome := []
  commitRec : Option Nat := none
  commitAcked : Bool := false
  committed : Bool := false
  since : Nat := 0
  image : List (Nat × Nat) := []
  spoiled : Bool := false
  replays : Nat := 0
deriving DecidableEq, Repr, Inhabited

/-- Stamps of a ring's CAN_HEAD writes: the counter value covered and the engine time of the write (R396). -/
structure HeadStamp where
  ring : Nat
  upto : Nat
  time : Nat
deriving DecidableEq, Repr, Inhabited

/-- A commit whose output this engine cannot yet show to be complete (R410): ring, and the entries written. -/
structure OutRec where
  ring : Nat
  psn : Nat
deriving DecidableEq, Repr, Inhabited

/-- Serving. -/
structure Serve where
  tenants : Sparse Tenant := []
  stamps : List HeadStamp := []
  reqs : List Request := []
  finished : List Finished := []
  slots : Sparse Slot := []
  prefixes : List Prefix := []
  steps : List Step := []
  nextStep : Nat := 0
  illegal : Nat := 0
  replays : Nat := 0
  tokens : Nat := 0
  tokensRest : Nat := 0
  cancelIgnored : Nat := 0
  refused : Nat := 0
deriving DecidableEq, Repr

end Sys2Proof.Machine
end

