-- ==== Sys2Proof/Machine/State.lean ====
section
/-!
DEFINITION. The state of the block, its reset, and the reasons a step can stop.
-/
namespace Sys2Proof.Machine

/-- Reasons a step stops with a fault. No command's meaning raises one: every event the manual describes has an effect
(safe). -/
inductive Fault where
  /-- Raised by nothing: the type is kept inhabited for the interface. Safe. -/
  | none
deriving DecidableEq, Repr

/-- Reasons a step has no meaning. -/
inductive Refusal where
  /-- The command has not been given its meaning yet. Safe. -/
  | notModelled (mnemonic : String)
deriving DecidableEq, Repr

/-- The whole state of the block. `pending` is the queue of commands, first in first out. -/
structure State where
  pending : List Instr := []
  free : Nat := 0
  core : Core := {}
  boot : Boot := {}
  clk : Clk := {}
  time : Time := {}
  pwr : Pwr := {}
  cool : Cool := {}
  dists : Sparse DistState := []
  parcels : Sparse ParcelState := []
  net : Net := {}
  stk : Stacks := {}
  fab : Fabric := {}
  load : Load := {}
  model : Model := {}
  serve : Serve := {}
  nv : Nv := {}
  sec : Sec := {}
  mgmt : Mgmt := {}
  cal : Cal := {}
  recov : Recov := {}
  tap : Tap := {}
  out : List OutMsg := []
  regRead : Word := 0
deriving DecidableEq, Repr

/-- The block right after reset: no supply, nothing written. -/
def State.reset : State := {}

end Sys2Proof.Machine
end

