-- ==== Sys2Proof/Machine/Ops.lean ====
section
/-!
DEFINITION. Access to the parts of the state: parcels, lots, districts; and the issue of a sweeper instruction in the
state.
-/
namespace Sys2Proof.Machine

/-- The outcome of a command. -/
abbrev Out := Host.Outcome State Fault Refusal

/-- Parcel `i`. -/
def State.parcel (s : State) (i : Pid) : ParcelState := Sparse.get {} s.parcels i.key

/-- The state with parcel `i` as given. -/
def State.setParcel (s : State) (i : Pid) (ps : ParcelState) : State :=
  { s with parcels := Sparse.put s.parcels i.key ps }

/-- Parcel `i` changed by `f`. -/
def State.modParcel (s : State) (i : Pid) (f : ParcelState → ParcelState) : State := s.setParcel i (f (s.parcel i))

/-- District `d`. -/
def State.dist (s : State) (d : Nat) : DistState := Sparse.get {} s.dists d

/-- The state with district `d` as given. -/
def State.setDist (s : State) (d : Nat) (x : DistState) : State := { s with dists := Sparse.put s.dists d x }

/-- District `d` changed by `f`. -/
def State.modDist (s : State) (d : Nat) (f : DistState → DistState) : State := s.setDist d (f (s.dist d))

/-- Physical lot `l` of a parcel. -/
def ParcelState.lot (ps : ParcelState) (l : Nat) : LotState := Sparse.get {} ps.lots l

/-- The parcel with lot `l` as given. -/
def ParcelState.setLot (ps : ParcelState) (l : Nat) (x : LotState) : ParcelState :=
  { ps with lots := Sparse.put ps.lots l x }

/-- Lot `l` changed by `f`. -/
def ParcelState.modLot (ps : ParcelState) (l : Nat) (f : LotState → LotState) : ParcelState :=
  ps.setLot l (f (ps.lot l))

/-- The physical parcel with key `k` (R20). -/
def pidOf (k : Nat) : Pid :=
  { d := ⟨k / 144 % 60, Nat.mod_lt _ (by decide)⟩, p := ⟨k % 144, Nat.mod_lt _ (by decide)⟩ }

/-- Whether a district runs its sweepers: ACTIVE (R470). -/
def State.running (s : State) (i : Pid) : Bool := (s.dist i.d.val).st == .active

/-- The issue of a sweeper instruction of class `c` in parcel `i`: nothing happens while the district does not run. -/
def State.issueAt (s : State) (i : Pid) (c : Nat) (illegal : Bool) (k : ParcelState → Issue) (tag : Nat := 0) : Out :=
  .next (if s.running i then s.modParcel i (fun ps => ps.issue c illegal k tag) else s)

end Sys2Proof.Machine
end

