-- ==== Sys2Proof/Machine/Alu.lean ====
section
/-!
DEFINITION. Sweeper ALU and IMM instructions (06 R181, R182). `a` is g[RS1], `b` g[RS2] or the sign-extended IMM32.
-/
namespace Sys2Proof.Machine

/-- Operand b (R181). -/
def aluB (ps : ParcelState) (o : AluOps) : Word :=
  if o.immf then o.imm.signExtend 64 else ps.gReg o.rs2.toNat

/-- A word of a truth value. -/
def bit (b : Bool) : Word := if b then 1 else 0

/-- An ALU instruction: g[RD] takes `f a b` (R181); a nonzero reserved field is ILLEGAL (R179). -/
def aluOp (f : Word → Word → Word) (p : Pid) (o : AluOps) (s : State) : Out :=
  s.issueAt p 0 (o.rsv ≠ 0)
    (fun ps => .done (ps.setG o.rd.toNat (f (ps.gReg o.rs1.toNat) (aluB ps o))) ps.next)

/-- An ALU instruction of one operand: an operand b other than g0 is ILLEGAL (R179, R181). -/
def aluOp1 (f : Word → Word) (p : Pid) (o : AluOps) (s : State) : Out :=
  s.issueAt p 0 (o.rsv ≠ 0 || o.immf || o.rs2 ≠ 0)
    (fun ps => .done (ps.setG o.rd.toNat (f (ps.gReg o.rs1.toNat))) ps.next)

/-- The shift count: b mod 64. -/
def shiftBy (b : Word) : Nat := b.toNat % 64

/-- High 64 bits of the signed product. -/
def mulHigh (a b : Word) : Word := BitVec.ofInt 64 (a.toInt * b.toInt / (2 ^ 64 : Nat))

/-- Signed quotient truncated toward zero; by zero all ones (R181). -/
def divS (a b : Word) : Word := if b = 0 then BitVec.allOnes 64 else BitVec.ofInt 64 (a.toInt.tdiv b.toInt)

/-- Unsigned quotient; by zero all ones. -/
def divU (a b : Word) : Word := if b = 0 then BitVec.allOnes 64 else a / b

/-- Remainder with the sign of `a`; by zero `a`. -/
def remS (a b : Word) : Word := if b = 0 then a else BitVec.ofInt 64 (a.toInt.tmod b.toInt)

/-- Unsigned remainder; by zero `a`. -/
def remU (a b : Word) : Word := if b = 0 then a else a % b

/-- Leading zeros. -/
def leadingZeros (a : Word) : Word := if a = 0 then 64 else BitVec.ofNat 64 (63 - Nat.log2 a.toNat)

/-- Ones. -/
def onesCount (a : Word) : Word :=
  BitVec.ofNat 64 ((List.range 64).filter (fun i => a.getLsbD i)).length

/-- ADD. -/
def execAdd (p : Pid) (o : AluOps) (s : State) : Out := aluOp (· + ·) p o s
/-- SUB. -/
def execSub (p : Pid) (o : AluOps) (s : State) : Out := aluOp (· - ·) p o s
/-- AND. -/
def execAnd (p : Pid) (o : AluOps) (s : State) : Out := aluOp (· &&& ·) p o s
/-- OR. -/
def execOr (p : Pid) (o : AluOps) (s : State) : Out := aluOp (· ||| ·) p o s
/-- XOR. -/
def execXor (p : Pid) (o : AluOps) (s : State) : Out := aluOp (· ^^^ ·) p o s
/-- SLL. -/
def execSll (p : Pid) (o : AluOps) (s : State) : Out := aluOp (fun a b => a <<< shiftBy b) p o s
/-- SRL. -/
def execSrl (p : Pid) (o : AluOps) (s : State) : Out := aluOp (fun a b => a >>> shiftBy b) p o s
/-- SRA. -/
def execSra (p : Pid) (o : AluOps) (s : State) : Out := aluOp (fun a b => a.sshiftRight (shiftBy b)) p o s
/-- SLT. -/
def execSlt (p : Pid) (o : AluOps) (s : State) : Out := aluOp (fun a b => bit (a.slt b)) p o s
/-- SLTU. -/
def execSltu (p : Pid) (o : AluOps) (s : State) : Out := aluOp (fun a b => bit (a.ult b)) p o s
/-- MIN, signed. -/
def execMin (p : Pid) (o : AluOps) (s : State) : Out := aluOp (fun a b => if a.slt b then a else b) p o s
/-- MAX, signed. -/
def execMax (p : Pid) (o : AluOps) (s : State) : Out := aluOp (fun a b => if a.slt b then b else a) p o s
/-- MUL, low 64 bits. -/
def execMul (p : Pid) (o : AluOps) (s : State) : Out := aluOp (· * ·) p o s
/-- MULH. -/
def execMulh (p : Pid) (o : AluOps) (s : State) : Out := aluOp mulHigh p o s
/-- DIV. -/
def execDiv (p : Pid) (o : AluOps) (s : State) : Out := aluOp divS p o s
/-- DIVU. -/
def execDivu (p : Pid) (o : AluOps) (s : State) : Out := aluOp divU p o s
/-- REM. -/
def execRem (p : Pid) (o : AluOps) (s : State) : Out := aluOp remS p o s
/-- REMU. -/
def execRemu (p : Pid) (o : AluOps) (s : State) : Out := aluOp remU p o s
/-- CLZ. -/
def execClz (p : Pid) (o : AluOps) (s : State) : Out := aluOp1 leadingZeros p o s
/-- POPC. -/
def execPopc (p : Pid) (o : AluOps) (s : State) : Out := aluOp1 onesCount p o s

/-- LI: IMM48 sign-extended (R182). -/
def execLi (p : Pid) (o : ImmOps) (s : State) : Out :=
  s.issueAt p 0 (o.rsv ≠ 0) (fun ps => .done (ps.setG o.rd.toNat (o.imm.signExtend 64)) ps.next)

/-- LHI: bits 63:48 of g[RD] become bits 15:0 of IMM48; bits 47:16 of it must be 0 (R182). -/
def execLhi (p : Pid) (o : ImmOps) (s : State) : Out :=
  s.issueAt p 0 (o.rsv ≠ 0 || o.imm.toNat ≥ 2 ^ 16)
    (fun ps =>
      let g := ps.gReg o.rd.toNat
      .done (ps.setG o.rd.toNat ((o.imm.setWidth 64 <<< 48) ||| (g &&& 0x0000FFFFFFFFFFFF#64))) ps.next)

end Sys2Proof.Machine
end

