-- ==== Sys2Proof/Machine/Turn.lean ====
section
/-!
DEFINITION. The weighted round robin of the routers and of the memory controllers (09 R290, R291; 12 R383). DESIGN CHOICE (log 15): the
manual gives what a round robin guarantees; here each who waits has the n-th unit of service due between two grants that its weight
sets, and of those whose unit may be served the one that is due first is.
-/
namespace Sys2Proof.Machine

/-- The grant from which on a seat's next unit of service may be given, at weight `w` of `d`. -/
def Seat.from_ (x : Seat) (d w : Nat) : Nat := x.base + x.served * d / w

/-- The grant by which its next `n` units are due. -/
def Seat.due (x : Seat) (d w n : Nat) : Nat := x.base + ((x.served + n) * d + w - 1) / w

/-- The seats of those who wait: one who did not wait at the last grant counts from now. -/
def Turn.seated (t : Turn) (waiting : List Nat) : List Seat :=
  waiting.eraseDups.map (fun k =>
    (t.seats.find? (fun (x : Seat) => x.key == k)).getD { key := k, base := t.grants, served := 0 })

/-- Of two seats, the one due first; the first of the list on a tie. -/
def earliest (d : Nat) (weight : Nat → Nat) : List Seat → Option Seat
  | [] => none
  | x :: xs => match earliest d weight xs with
    | none => some x
    | some y => if x.due d (weight x.key) 1 ≤ y.due d (weight y.key) 1 then some x else some y

/-- Whose turn it is among those who wait, `weight` giving each its part of `d`: of those with a weight, the one that is due first, those
whose next unit may be given now before the others; with no weight among them, the first. -/
def Turn.next (t : Turn) (d : Nat) (weight : Nat → Nat) (waiting : List Nat) : Option Nat :=
  let xs := (t.seated waiting).filter (fun (x : Seat) => weight x.key > 0)
  let now := xs.filter (fun (x : Seat) => x.from_ d (weight x.key) ≤ t.grants)
  match earliest d weight now with
  | some x => some x.key
  | none => match earliest d weight xs with
    | some x => some x.key
    | none => waiting.head?

/-- `n` units given to `k` while `waiting` waited. -/
def Turn.give (t : Turn) (waiting : List Nat) (k n : Nat) : Turn :=
  { grants := t.grants + n
    seats := (t.seated waiting).map (fun (x : Seat) => if x.key = k then { x with served := x.served + n } else x) }

end Sys2Proof.Machine
end

