-- ==== Sys2Proof/Machine/Router.lean ====
section
/-!
DEFINITION. The lanes: floor plan, detour tables, routes, injection and trees (01 R20 to R23; 09 R262 to R264, R269 to R273, R277 to R281,
R287, R300).
-/
namespace Sys2Proof.Machine

/-! ### Floor plan (R20 table, R21, R23, R269) -/

/-- Row and column of district `d` on the 8 by 8 grid. -/
def distRC (d : Nat) : Nat × Nat :=
  if d < 6 then (0, d + 1) else if d < 54 then (1 + (d - 6) / 8, (d - 6) % 8) else (7, d - 53)

/-- The district at a row and column; none at the corners and off the grid. -/
def distAt (r c : Nat) : Option Nat :=
  if r = 0 then (if 1 ≤ c ∧ c ≤ 6 then some (c - 1) else none)
  else if r ≤ 6 then (if c ≤ 7 then some (6 + 8 * (r - 1) + c) else none)
  else if r = 7 then (if 1 ≤ c ∧ c ≤ 6 then some (53 + c) else none)
  else none

/-- Global coordinates of a parcel (R269). -/
def pidXY (i : Pid) : Nat × Nat :=
  let rc := distRC i.d.val
  (12 * rc.2 + i.p.val % 12, 12 * rc.1 + i.p.val / 12)

/-- The parcel at global coordinates. -/
def pidAt (x y : Nat) : Option Pid :=
  (distAt (y / 12) (x / 12)).map (fun d => pidOf (144 * d + 12 * (y % 12) + x % 12))

/-- The `k`-th edge parcel of an edge: N 0, S 1, E 2, W 3 (R23). -/
def edgeParcel (edge k : Nat) : Nat :=
  match edge with | 0 => k | 1 => 132 + k | 2 => 12 * k + 11 | _ => 12 * k

/-- District and edge of a block in the edge frame (R21): stacks, ports, management ports. DESIGN CHOICE (log 129): the manual places
one management port beside ports 14 and 15 and one beside ports 6 and 7 and does not number them; here they are 0 and 1. -/
def blockPlace : Endpoint → Option (Nat × Nat)
  | .stack k =>
    let i := k.val % 6
    some (match k.val / 6 with
      | 0 => (i, 0) | 1 => (13 + 8 * i, 2) | 2 => (59 - i, 1) | _ => (46 - 8 * i, 3))
  | .port p => some (match p.val / 2 with
      | 0 => (5, 2) | 1 => (13, 0) | 2 => (53, 1) | 3 => (59, 2) | 4 => (54, 3) | 5 => (46, 1) | 6 => (6, 0) | _ => (0, 3))
  | .mgmt i => some (if i.val = 0 then (0, 3) else (59, 2))
  | _ => none

/-- The unit number of an endpoint (R264). -/
def Endpoint.unit : Endpoint → Nat
  | .parcel i => i.p.val
  | .tree t => t
  | .warden d => d.val
  | .stack k => k.val
  | .port p => p.val
  | .mgmt i => 16 + i.val

/-- The detour table entry that serves an endpoint (R271). -/
def Endpoint.entry : Endpoint → Nat
  | .parcel i => i.d.val
  | .tree _ => 0
  | .warden d => d.val
  | .stack k => 60 + k.val
  | .port p => 84 + p.val
  | .mgmt i => 100 + i.val

/-- Whether a district forwards: ACTIVE, IDLE or SPARE (R262). -/
def forwards (st : PSt) : Bool := st == .active || st == .idle || st == .spare

/-- Whether a district forwards and takes part in routes: it is no hole (R262, R273). -/
def State.live (s : State) (d : Nat) : Bool := forwards (s.dist d).st && !(s.dist d).hole

/-- The edge across from an edge. -/
def opposite (e : Nat) : Nat := match e with | 0 => 1 | 1 => 0 | 2 => 3 | _ => 2

/-- The neighbours of a district: the edge they lie on, and their number. -/
def distNbrs (d : Nat) : List (Nat × Nat) :=
  let rc := distRC d
  let at_ (e : Nat) (o : Option Nat) : List (Nat × Nat) := (o.map (fun q => (e, q))).toList
  (if rc.1 = 0 then [] else at_ 0 (distAt (rc.1 - 1) rc.2)) ++ at_ 1 (distAt (rc.1 + 1) rc.2) ++
    at_ 2 (distAt rc.1 (rc.2 + 1)) ++ (if rc.2 = 0 then [] else at_ 3 (distAt rc.1 (rc.2 - 1)))

/-! ### Detour tables (R271 to R273, R279, R280) -/

/-- Fields of a detour table entry. -/
def detKind (e : BitVec 32) : Nat := e.toNat / 2 ^ 30
/-- The waypoint or entry district. -/
def detWayd (e : BitVec 32) : Nat := e.toNat / 2 ^ 24 % 64
/-- The entry parcel. -/
def detEntry (e : BitVec 32) : Nat := e.toNat / 2 ^ 16 % 256
/-- An entry from its fields. -/
def detMake (kind wayd entry : Nat) : BitVec 32 := BitVec.ofNat 32 (kind * 2 ^ 30 + wayd * 2 ^ 24 + entry * 2 ^ 16)

/-- The numbers from `a` to `b`, in either direction. -/
def between (a b : Nat) : List Nat :=
  if a ≤ b then (List.range (b - a + 1)).map (fun i => a + i) else (List.range (a - b + 1)).map (fun i => b + i)

/-- The grid places of the district-level XY path. -/
def distPath (s d : Nat) : List (Nat × Nat) :=
  let a := distRC s
  let b := distRC d
  (between a.2 b.2).map (fun c => (a.1, c)) ++ (between a.1 b.1).map (fun r => (r, b.2))

/-- A district-level XY path that passes through no hole. -/
def xyClear (holes : List Nat) (s d : Nat) : Bool :=
  (distPath s d).all (fun p => match distAt p.1 p.2 with
    | some x => !holes.contains x
    | none => false)

/-- District steps between two districts. -/
def distSteps (s d : Nat) : Nat :=
  let a := distRC s
  let b := distRC d
  (a.1 - b.1) + (b.1 - a.1) + ((a.2 - b.2) + (b.2 - a.2))

/-- detour of R273: direct, a waypoint, or unreachable (HOLE); a hole itself is HOLE. -/
def detour (holes : List Nat) (s d : Nat) : BitVec 32 :=
  if holes.contains d then detMake 2 0 0
  else if s = d || xyClear holes s d then 0
  else
    let best := (List.range 60).foldl (fun (b : Option (Nat × Nat)) w =>
      if holes.contains w || !xyClear holes s w || !xyClear holes w d then b
      else
        let c := distSteps s w + distSteps w d
        match b with
        | none => some (c, w)
        | some x => if c < x.1 then some (c, w) else b) none
    match best with
    | some x => detMake 1 x.2 0
    | none => detMake 2 0 0

/-- The 32 outer edges in the order of the edge chain, from the north edge of district 0 clockwise to its west edge: district
and edge (R279). -/
def outerEdges : List (Nat × Nat) :=
  [(0, 0), (1, 0), (2, 0), (3, 0), (4, 0), (5, 0), (5, 2), (13, 0), (13, 2), (21, 2), (29, 2), (37, 2), (45, 2), (53, 2),
   (53, 1), (59, 2), (59, 1), (58, 1), (57, 1), (56, 1), (55, 1), (54, 1), (54, 3), (46, 1), (46, 3), (38, 3), (30, 3),
   (22, 3), (14, 3), (6, 3), (6, 0), (0, 3)]

/-- The edge parcel of an outer edge that lies at its end toward the rising (true) or falling end of the chain. -/
def chainEnd (edge : Nat) (rising : Bool) : Nat :=
  match edge, rising with
  | 0, true => 11 | 0, false => 0
  | 2, true => 143 | 2, false => 11
  | 1, true => 132 | 1, false => 143
  | _, true => 0 | _, false => 132

/-- The absolute difference of two numbers. -/
def absDiff (a b : Nat) : Nat := (a - b) + (b - a)

/-- The place in the edge chain of the edge that a block lies on; 32 for what lies on none. -/
def chainPlace (e : Endpoint) : Nat :=
  match blockPlace e with
  | none => 32
  | some b => outerEdges.findIdx (fun x => x == b)

/-- The outer edge nearest place `j` of the chain, among those that `ok` allows. DEDUCED (log 14): nearest counts edges along the chain,
ties to the lower place. -/
def nearestEdge (ok : Nat × Nat → Bool) (j : Nat) : Option Nat :=
  (outerEdges.zipIdx.foldl (fun (b : Option (Nat × Nat)) x =>
    if !ok x.1 then b
    else match b with
      | none => some (absDiff x.2 j, x.2)
      | some y => if absDiff x.2 j < y.1 then some (absDiff x.2 j, x.2) else b) none).map Prod.snd

/-- The edge parcel of outer edge `i` at its end toward the block at place `j`. -/
def entryParcel (i j : Nat) : Nat := chainEnd (outerEdges.getD i (0, 0)).2 (decide (i < j))

/-- The parcel of entry district `w` at which a flit for a block crosses into the chain (R280); none where no outer edge is its. -/
def chainParcel (dst : Endpoint) (w : Nat) : Option Pid :=
  (nearestEdge (fun x => x.1 == w) (chainPlace dst)).map (fun i => pidOf (144 * w + entryParcel i (chainPlace dst)))

/-- The junction of outer edge `i` at its end toward place `j`: each edge has 12 of the chain's 384 (R279). -/
def edgeJunction (i j : Nat) : Nat := 12 * i + (if i < j then 11 else 0)

/-- The entry of a block in district `s` (R271, R280): as its district's, or the nearest live outer edge along the chain
where its district is a hole. The entry parcel is the one at the near end of that edge. -/
def blockEntry (holes : List Nat) (s : Nat) (e : Endpoint) : BitVec 32 :=
  match blockPlace e with
  | none => detMake 2 0 0
  | some (d, _) =>
    if !holes.contains d then detour holes s d
    else match nearestEdge (fun x => !holes.contains x.1 && (s == x.1 || xyClear holes s x.1)) (chainPlace e) with
      | none => detMake 2 0 0
      | some i => detMake 3 (outerEdges.getD i (0, 0)).1 (entryParcel i (chainPlace e))

/-- The endpoints that entries 60 to 101 serve. -/
def blockEndpoints : List Endpoint :=
  (List.finRange 24).map Endpoint.stack ++ (List.finRange 16).map Endpoint.port ++ (List.finRange 2).map Endpoint.mgmt

/-- The table of district `s` for a hole set (R273). -/
def detourTable (holes : List Nat) (s : Nat) : Sparse (BitVec 32) :=
  ((List.range 60).map (fun d => (d, detour holes s d)) ++
    blockEndpoints.map (fun e => (e.entry, blockEntry holes s e))).filter (fun x => x.2 ≠ 0)

/-- The pairs of live districts that a hole set leaves unreachable. -/
def unreachable (holes : List Nat) : List (Nat × Nat) :=
  let live := (List.range 60).filter (fun d => !holes.contains d)
  (live.flatMap (fun s => live.map (fun d => (s, d)))).filter (fun p => detKind (detour holes p.1 p.2) == 2)

/-- Live districts added to the hole set until every pair is reachable: the one with the most unreachable pairs, on a tie
the lowest (R273). Answers the districts added. -/
def closeHoles : Nat → List Nat → List Nat
  | 0, _ => []
  | n + 1, holes =>
    let ps := unreachable holes
    if ps.isEmpty then []
    else
      let score (d : Nat) := (ps.filter (fun p => p.1 == d || p.2 == d)).length
      let d := ((List.range 60).filter (fun d => !holes.contains d)).foldl (fun (b : Nat × Nat) d =>
        if score d > b.1 then (score d, d) else b) (0, 60)
      d.2 :: closeHoles n (d.2 :: holes)

/-! ### Routes (R269, R270, R272) -/

/-- The parcel a flit ends its mesh route at, and the port it leaves it through (R270). -/
def finalTarget (dst : Endpoint) (srcUnit : Nat) : Option (Pid × Nat) :=
  match dst with
  | .parcel i => some (i, 4)
  | .tree _ => none
  | .warden d => some (pidOf (144 * d.val), 3)
  | e => (blockPlace e).map (fun b => (pidOf (144 * b.1 + edgeParcel b.2 (srcUnit % 12)), b.2))

/-- The output toward a parcel, X first then Y; local at the parcel. -/
def stepToward (r t : Pid) : Nat :=
  if (pidXY r).1 < (pidXY t).1 then 2
  else if (pidXY t).1 < (pidXY r).1 then 3
  else if (pidXY r).2 < (pidXY t).2 then 1
  else if (pidXY t).2 < (pidXY r).2 then 0
  else 4

/-- Where VC4 reaches the control strip of a district that is a hole: from the first live district beside it, over the junction between
them (R278). -/
def wardenVia (tbl : Sparse (BitVec 32)) (d : Nat) : Option Pid :=
  ((distNbrs d).find? (fun q => detKind (Sparse.get 0 tbl q.2) ≠ 2)).map (fun q =>
    pidOf (144 * q.2 + edgeParcel (opposite q.1) 0))

/-- Where a flit leaves the mesh: the parcel and the port there. A block whose entry is CHAIN is left for at the entry parcel of the
flit's WAYD (R280). DEDUCED (log 14): the entry parcel follows from DST and WAYD, so that every router agrees on it. -/
def meshExit (tbl : Sparse (BitVec 32)) (dst : Endpoint) (srcUnit wayd : Nat) : Option (Pid × Nat) :=
  let kind := detKind (Sparse.get 0 tbl dst.entry)
  match dst with
  | .warden d => if kind = 2 then (wardenVia tbl d.val).map (fun t => (t, 5)) else finalTarget dst srcUnit
  | e => if kind = 3 && wayd < 60 && (blockPlace e).isSome then (chainParcel e wayd).map (fun t => (t, 6)) else finalTarget e srcUnit

/-- Output and leg of a flit at router `r`, or none where its DST names nothing; port 5 is the crossing into the edge chain, in leg 3,
or into the destination's block or strip (R269, R270, R272, R280). `tbl` is the detour table of the router's district. -/
def routeAt (tbl : Sparse (BitVec 32)) (r : Pid) (dst : Endpoint) (srcUnit leg wayd : Nat) : Option (Nat × Nat) :=
  (meshExit tbl dst srcUnit wayd).map (fun x =>
    let toward (leg : Nat) : Nat × Nat :=
      if r ≠ x.1 then (stepToward r x.1, leg) else if x.2 = 4 then (4, leg) else if x.2 = 6 then (5, 3) else (5, leg)
    if x.2 ≠ 6 && leg ≤ 1 && wayd < 60 then
      let w := pidOf (144 * wayd + x.1.p.val)
      if r = w then toward 2 else (stepToward r w, 1)
    else toward leg)

/-- The router on the far side of an output, and the input port it arrives at there. -/
def neighbour (r : Pid) (out : Nat) : Option (Pid × Fin 5) :=
  let x := (pidXY r).1
  let y := (pidXY r).2
  match out with
  | 0 => if y = 0 then none else (pidAt x (y - 1)).map (fun q => (q, 1))
  | 1 => (pidAt x (y + 1)).map (fun q => (q, 0))
  | 2 => (pidAt (x + 1) y).map (fun q => (q, 3))
  | 3 => if x = 0 then none else (pidAt (x - 1) y).map (fun q => (q, 2))
  | _ => none

/-- Buffers of a leg in one VC of an input (R267). -/
def legBuffers (leg : Nat) : Nat := match leg with | 1 => 4 | 2 => 2 | _ => 1

/-- The key of a credit counter. -/
def creditKey (out vc leg : Nat) : Nat := 24 * out + 4 * vc + leg

/-! ### Injection (R270, R272, R278, R280) -/

/-- The detour table the injector of a source uses. -/
def State.tableOf (s : State) (d : Nat) : Sparse (BitVec 32) := (s.dist d).detour

/-- Where a flit of a source enters the lanes, and the district whose table serves it there: the source parcel's router from its local
port, or for a block the edge parcel of its district that the destination's unit names; the block's junction of the edge chain, on its
way to the nearest live outer edge, where that district is a hole. -/
def State.entryPoint (s : State) (src dst : Endpoint) : Option (Loc × Nat) :=
  match src with
  | .parcel i => some (.link i 4, i.d.val)
  | .warden d => some (.link (pidOf (144 * d.val)) 3, d.val)
  | .tree _ => none
  | e => match blockPlace e with
    | none => none
    | some (d, edge) =>
      if s.live d then some (.link (pidOf (144 * d + edgeParcel edge (dst.unit % 12))) ⟨edge % 4, by omega⟩, d)
      else (nearestEdge (fun x => s.live x.1) (chainPlace e)).map (fun i =>
        (.chain ⟨(12 * chainPlace e + (if i < chainPlace e then 0 else 11)) % 384, Nat.mod_lt _ (by decide)⟩,
          (outerEdges.getD i (0, 0)).1))

/-- Flit number `id`. -/
def State.flit (s : State) (id : Nat) : Option Flit := s.net.flits.find? (fun f => f.id == id)

/-- The lanes without flit `id`. -/
def State.dropFlit (s : State) (id : Nat) : State :=
  { s with net := { s.net with flits := s.net.flits.filter (fun f => f.id ≠ id) } }

/-- Flit `f` as given, the last to have come to where it stands. -/
def State.moveFlit (s : State) (f : Flit) : State :=
  { s with net := { s.net with flits := s.net.flits.filter (fun g => g.id ≠ f.id) ++ [{ f with since := s.clk.fclk }] } }

/-- Buffers that an input port of router `q` has taken for a VC and leg: those of flits on the link among them (R267). -/
def State.occupancy (s : State) (q : Pid) (inp : Fin 5) (vc leg : Nat) : Nat :=
  (s.net.flits.filter (fun f => f.vc == vc && f.leg == leg && (f.loc == .link q inp || f.loc == .buf q inp))).length

/-- Whether the chain's junction `j` has its buffer free for a VC and leg (R267, R279). -/
def State.junctionFree (s : State) (j : Fin 384) (vc leg : Nat) : Bool :=
  !s.net.flits.any (fun f => f.vc == vc && f.leg == leg && f.loc == .chain j)

/-- Whether a buffer is free where a flit enters the lanes. -/
def State.roomAt (s : State) (l : Loc) (vc leg : Nat) : Bool :=
  match l with
  | .link r inp => s.occupancy r inp vc leg < legBuffers leg
  | .chain j => s.junctionFree j vc leg
  | _ => false

/-- The leg in which a flit enters the lanes: 0 from a block into the chain, else 1 (R272, R280). -/
def entryLeg (l : Loc) : Nat := match l with | .chain _ => 0 | _ => 1

/-- Whether a flit injected now would enter the lanes at once: no flit of its source and VC waits, and a buffer is free. A source sends
only then; what a block returns in one row may wait at the block (R267). -/
def State.canSend (s : State) (vc : Nat) (dst src : Endpoint) : Bool :=
  match s.entryPoint src dst with
  | none => true
  | some x => s.roomAt x.1 vc (entryLeg x.1) && !s.net.flits.any (fun f => f.loc == .source && f.src == src && f.vc == vc)

/-- Whether `n` flits injected now would enter the lanes at once. -/
def State.canSendRun (s : State) (vc : Nat) (dst src : Endpoint) (n : Nat) : Bool :=
  s.canSend vc dst src && (match s.entryPoint src dst with
    | some (.link r inp, _) => decide (s.occupancy r inp vc 1 + n ≤ legBuffers 1)
    | some (.chain _, _) => decide (n ≤ 1)
    | _ => true)

/-- A flit at its source enters the lanes where a buffer is free; it is lost where its source has no way onto them any more. -/
def State.letIn (s : State) (f : Flit) : State :=
  match s.entryPoint f.src f.dst with
  | none => s.dropFlit f.id
  | some x => if s.roomAt x.1 f.vc f.leg then s.moveFlit { f with loc := x.1 } else s

/-- The detour table entry that serves an injection: for VC4 to the strip of a hole, that of the district beside it (R278). -/
def injectEntry (tbl : Sparse (BitVec 32)) (vc : Nat) (dst : Endpoint) : BitVec 32 :=
  match dst with
  | .tree _ => 0
  | .warden d => if vc = 4 && detKind (Sparse.get 0 tbl dst.entry) = 2 then
      ((wardenVia tbl d.val).map (fun t => Sparse.get 0 tbl t.d.val)).getD (detMake 2 0 0)
    else Sparse.get 0 tbl dst.entry
  | e => Sparse.get 0 tbl e.entry

/-- A flit of a tenant put onto the lanes: leg and waypoint from the detour table of the district where it enters; none where the
destination's entry is HOLE, or the source has no way onto the mesh (R272). -/
def State.injectFor (s : State) (tenant vc ch seq typ : Nat) (dst src : Endpoint) (pl : Payload) : Option State :=
  match s.entryPoint src dst with
  | none => none
  | some x =>
    let e := injectEntry (s.tableOf x.2) vc dst
    if detKind e = 2 then none
    else
      let f : Flit := {
        id := s.net.nextFlit
        vc := vc
        tenant := tenant
        ch := ch
        dst := dst
        src := src
        seq := seq % 4096
        typ := typ
        leg := entryLeg x.1
        wayd := if detKind e = 0 then 63 else detWayd e
        payload := pl
        loc := .source
        since := s.clk.fclk }
      some { s with net := { s.net with
        nextFlit := s.net.nextFlit + 1
        flits := s.net.flits ++ [if s.canSend vc dst src then { f with loc := x.1 } else f] } }

/-- A flit put onto the lanes under the TENANT that its work has, which the manual does not say (log 8). -/
def State.inject (s : State) (vc ch seq typ : Nat) (dst src : Endpoint) (pl : Payload) : Option State :=
  s.injectFor (Config.flitTenant s.net.nextFlit % 16) vc ch seq typ dst src pl

/-- A management flit of a warden to another (R266); none where it has no way. -/
def State.sendMgmt (s : State) (src dst : Nat) (m : MgmtMsg) : State :=
  (s.inject 4 0 0 6 (.warden ⟨dst % 60, Nat.mod_lt _ (by decide)⟩) (.warden ⟨src % 60, Nat.mod_lt _ (by decide)⟩) (.mgmt m)).getD s

/-! ### Trees (R280, R287, R288) -/

/-- The hops of the route from router `r` to a parcel, at most `n` of them: router, leg, output, leg after it. -/
def State.routeHops (s : State) (dst : Endpoint) (srcUnit : Nat) : Nat → Pid → Nat → Nat → List TreeHop
  | 0, _, _, _ => []
  | n + 1, r, leg, wayd =>
    match routeAt (s.tableOf r.d.val) r dst srcUnit leg wayd with
    | none => []
    | some (out, leg') =>
      let h : TreeHop := { r := r.key, leg := leg, out := out, legOut := leg' }
      if out ≥ 4 then [h]
      else match neighbour r out with
        | none => []
        | some (q, _) => h :: s.routeHops dst srcUnit n q leg' wayd

/-- The route of an injection from parcel `a` to parcel `b`; empty where there is none. -/
def State.routeOf (s : State) (a b : Pid) : List TreeHop :=
  let e := Sparse.get 0 (s.tableOf a.d.val) b.d.val
  if detKind e = 2 then [] else s.routeHops (.parcel b) a.p.val 400 a 1 (if detKind e = 1 then detWayd e else 63)

/-- Whether a route enters a router otherwise than the tree already does. -/
def entersTwice (tree route : List TreeHop) : Bool :=
  let heads := route.zip (route.drop 1)
  heads.any (fun p => tree.any (fun h => h.r == p.2.r && h.leg != p.2.leg) ||
    (tree.any (fun h => h.r == p.2.r) && !tree.any (fun h => h == p.1)))

/-- A tree as the union of the routes from its root to its members; members that would enter a router twice are left to
unicast (R287, R288). -/
def State.buildTree (s : State) (t : Tree) : TreeRoute :=
  match s.net.place.lookup t.root with
  | none => {}
  | some root => t.members.foldl (fun (a : TreeRoute) m =>
      match s.net.place.lookup m with
      | none => a
      | some b =>
        let r := s.routeOf root b
        if r.isEmpty || entersTwice a.hops r then { a with unicast := a.unicast ++ [m] }
        else { a with hops := a.hops ++ r.filter (fun h => !a.hops.contains h) }) {}

/-- Every tree rebuilt (R287). -/
def State.buildTrees (s : State) : State :=
  { s with net := { s.net with routes := s.net.trees.map (fun t => (t.1, s.buildTree t.2)) } }

end Sys2Proof.Machine
end

