-- ==== Sys2Proof/Machine/Arbiter.lean ====
section
/-!
DEFINITION. Forwarding and arbitration in the routers and along the edge chain, and the rows FLIT_ARRIVAL and CREDIT_RETURN
(09 R260 to R269, R276, R279, R280, R284, R287 to R290, R292, R297, R299).
-/
namespace Sys2Proof.Machine

/-! ### Routers -/

/-- Router of parcel `r` changed. -/
def State.modRtr (s : State) (r : Pid) (g : Router → Router) : State :=
  s.modParcel r (fun ps => { ps with rtr := g ps.rtr })

/-- The batch step a flit belongs to: what it carries says so, or else the parcel that sent it, or the one it is for, runs it. -/
def State.flitStep (s : State) (f : Flit) : Nat :=
  match f.payload with
  | .record _ _ _ step => step
  | .egress _ _ _ _ _ _ step => step
  | .kapRow r => r.step
  | _ => match f.src, f.dst with
    | .parcel i, _ => (s.parcel i).swp.step.toNat
    | _, .parcel i => (s.parcel i).swp.step.toNat
    | _, _ => 0

/-- A drop under R265 or R276: counted, and reported as a data fault of the flit's step. -/
def State.detourDrop (s : State) (r : Pid) (f : Flit) : State :=
  (s.dropFlit f.id).modParcel r (fun ps =>
    { ps with rtr := { ps.rtr with detourDrop := satAdd 16 ps.rtr.detourDrop 1 } }.dataFault .detour (s.flitStep f))

/-- Whether the current cycle of output `out` is reserved for VC0 (R297). -/
def State.reservedNow (s : State) (r : Pid) (out : Nat) : Bool :=
  (Sparse.get 0 (s.parcel r).rtr.resv out).getLsbD (s.clk.fclk % 4096)

/-- FLITS_OUT counts in units of 256 (R299). -/
def Router.countOut (x : Router) : Router :=
  if x.flitsRest ≥ 255 then { x with flitsRest := 0, flitsOut := satAdd 32 x.flitsOut 1 }
  else { x with flitsRest := x.flitsRest + 1 }

/-- Whether the router has a credit for an output, VC and leg (R267). -/
def Router.hasCredit (x : Router) (out vc leg : Nat) : Bool :=
  Sparse.get 0 x.used (creditKey out vc leg) < legBuffers leg

/-- A buffer taken at the next router. -/
def Router.useCredit (x : Router) (out vc leg : Nat) : Router :=
  { x with used := Sparse.put x.used (creditKey out vc leg) (Sparse.get 0 x.used (creditKey out vc leg) + 1) }

/-- Bit of an output in a field that lists N, E, S, W from high to low (R299). -/
def newsBit (out : Nat) : Nat := match out with | 0 => 3 | 2 => 2 | 1 => 1 | _ => 0

/-- Whether an output leads to a hole (R275). -/
def Router.deadOut (x : Router) (out : Nat) : Bool := decide (out < 4) && x.dead.getLsbD (newsBit out)

/-- FCLK cycles that a flit takes an output for: 2 at half width (R261). -/
def Router.width (x : Router) (out : Nat) : Nat := if decide (out < 4) && x.half.getLsbD (newsBit out) then 2 else 1

/-- Whether the local port of parcel `r` is closed: fenced by a bollard, or the parcel is dark (R262). -/
def State.portClosed (s : State) (r : Pid) : Bool :=
  let ps := s.parcel r
  ps.rtr.fenced || ps.health.bollard || !ps.reg.on

/-! ### Sinks (R292) -/

/-- Whether a sink accepts a flit of a VC: a controller its read requests while its read queue of 1,024 has an entry free, a port block
records while its transmit buffer of 16 MiB has room, a parcel one flit of VC0, VC1 and VC5 each until it is dealt with. The sinks of the
other VCs always accept. DESIGN CHOICE (log 130): one flit is what a parcel's sink holds of a VC. -/
def State.sinkOpen (s : State) (e : Endpoint) (vc : Nat) : Bool :=
  let n := (s.net.flits.filter (fun f => f.vc == vc && f.loc == .sink e)).length
  match e with
  | .parcel _ => vc = 2 || vc = 3 || vc = 4 || n < 1
  | .stack _ => vc ≠ 1 || n < 1024
  | .port _ => vc ≠ 1 || n < 233016
  | _ => true

/-- Whether a flit may leave router `r` through an output now: a credit is at hand, or the sink accepts. A closed local port takes
anything, to drop it. -/
def State.ready (s : State) (r : Pid) (f : Flit) (out leg : Nat) : Bool :=
  if out = 4 then s.portClosed r || s.sinkOpen (.parcel r) f.vc
  else if out = 5 then
    if leg = 3 then
      (match blockPlace f.dst, nearestEdge (fun x => x.1 == f.wayd) (chainPlace f.dst) with
      | some _, some i => s.junctionFree ⟨edgeJunction i (chainPlace f.dst) % 384, Nat.mod_lt _ (by decide)⟩ f.vc 3
      | _, _ => true)
    else s.sinkOpen f.dst f.vc
  else (s.parcel r).rtr.hasCredit out f.vc leg

/-! ### Heads (R267, R268) -/

/-- Whether two flits stand in the same buffer queue. -/
def Flit.sameQueue (f g : Flit) : Bool := f.loc == g.loc && f.vc == g.vc && f.leg == g.leg

/-- The heads of router `r` that wait for an output, oldest first, each with the leg beyond it: the first flit of each input, VC and
leg. -/
def State.heads (s : State) (r : Pid) (out : Nat) : List (Flit × Nat) :=
  s.net.flits.filterMap (fun f =>
    match f.loc with
    | .buf q _ =>
      if q = r && (s.net.flits.find? (fun g => g.sameQueue f)).any (fun g => g.id == f.id) then
        (f.outs.find? (fun x => x.1 == out)).map (fun x => (f, x.2))
      else none
    | _ => none)

/-- Whether a head has waited 16 unreserved cycles of the output (R268). -/
def agedHead (map : BitVec 4096) (since now : Nat) : Bool :=
  ((List.range (min (now - since) 4608)).filter (fun k => !map.getLsbD ((since + k) % 4096))).length ≥ 16

/-- The order of the VCs at an output (R268). -/
def vcOrder : List Nat := [4, 3, 2, 1, 5, 0]

/-- Of some heads the one that has waited longest; of those, the one whose VC comes first. -/
def oldestHead : List (Flit × Nat) → Option (Flit × Nat)
  | [] => none
  | x :: xs => match oldestHead xs with
    | none => some x
    | some y =>
      if x.1.since < y.1.since ∨ (x.1.since = y.1.since ∧ vcOrder.idxOf x.1.vc ≤ vcOrder.idxOf y.1.vc) then some x else some y

/-- What an output grants: the head, the leg beyond, whether it is aged, and whether it is VC4 taking the third step. -/
structure Grant where
  flit : Flit
  leg : Nat
  aged : Bool
  late4 : Bool
deriving DecidableEq, Repr

/-- Within one VC model-scoped heads go first; request-scoped heads are served by easement (R268, R290). -/
def scopedHead (turn : Turn) (ease : Nat → Nat) (xs : List (Flit × Nat)) : Option (Flit × Nat) :=
  match xs.find? (fun x => x.1.typ == 1) with
  | some x => some x
  | none => (turn.next 256 ease (xs.map (fun x => x.1.tenant))).bind (fun k => xs.find? (fun x => x.1.tenant == k))

/-- The grant of one cycle of an output among the heads that compete for it (R268). -/
def arbitrate (x : Router) (ease : Nat → Nat) (out now : Nat) (reserved : Bool) (hs : List (Flit × Nat)) : Option Grant :=
  let map := Sparse.get 0 x.resv out
  match (if reserved then oldestHead (hs.filter (fun h => h.1.vc == 0)) else none) with
  | some h => some ⟨h.1, h.2, false, false⟩
  | none => match oldestHead (hs.filter (fun h => agedHead map h.1.since now)) with
    | some h => some ⟨h.1, h.2, true, false⟩
    | none =>
      let vcs := vcOrder.filter (fun v => v ≠ 4 || decide (Sparse.get 0 x.vc4At out ≤ now))
      match vcs.find? (fun v => hs.any (fun h => h.1.vc == v)) with
      | none => none
      | some v => (scopedHead (Sparse.get {} x.turns (8 * out + v)) ease (hs.filter (fun h => h.1.vc == v))).map (fun h =>
          ⟨h.1, h.2, false, v == 4⟩)

/-- The router after a grant: the output is taken, VC4 waits 16 cycles for its next third step, the tenant's turn is counted. -/
def Router.granted (x : Router) (ease : Nat → Nat) (out now : Nat) (hs : List (Flit × Nat)) (g : Grant) : Router :=
  let k := 8 * out + g.flit.vc
  let waiting := (hs.filter (fun h => h.1.vc == g.flit.vc && h.1.typ != 1)).map (fun h => h.1.tenant)
  let y := { x with
    busy := Sparse.put x.busy out (now + x.width out)
    agedWins := if g.aged then satAdd 32 x.agedWins 1 else x.agedWins
    vc4At := if g.late4 then Sparse.put x.vc4At out (now + 16) else x.vc4At
    turns := if g.flit.typ = 1 || ease g.flit.tenant = 0 then x.turns
      else Sparse.put x.turns k ((Sparse.get ({} : Turn) x.turns k).give waiting g.flit.tenant 1) }
  y.countOut

/-! ### Leaving a buffer -/

/-- A flit leaves its buffer, or one of its copies does: the next flit of the queue is a head from now on (R268, R288). -/
def State.unbuffer (s : State) (f : Flit) (out : Nat) : State :=
  if f.outs.length > 1 then
    { s with net := { s.net with flits := s.net.flits.map (fun g =>
      if g.id = f.id then { g with outs := g.outs.filter (fun x => x.1 ≠ out) } else g) } }
  else
    let s1 := s.dropFlit f.id
    match s1.net.flits.find? (fun g => g.sameQueue f) with
    | none => s1
    | some h => { s1 with net := { s1.net with flits := s1.net.flits.map (fun g =>
        if g.id = h.id then { g with since := s.clk.fclk } else g) } }

/-- What leaves: the flit itself with its last copy, else a copy with a number of its own. -/
def State.copyOf (s : State) (f : Flit) : Flit × Nat :=
  if f.outs.length > 1 then ({ f with id := s.net.nextFlit }, s.net.nextFlit + 1) else (f, s.net.nextFlit)

/-- A flit comes to a place in a leg. -/
def State.putFlit (s : State) (f : Flit) (leg : Nat) (l : Loc) : State :=
  { s with net := { s.net with flits := s.net.flits ++ [{ f with leg := leg, loc := l, outs := [], since := s.clk.fclk }] } }

/-- The acknowledgement of a port's spill writes gives its credits back (R293, R294). -/
def State.blockAck (s : State) (e : Endpoint) (pl : Payload) : State :=
  match e, pl with
  | .port k, .ackCount c os back grant =>
    let x := Sparse.get {} s.fab.ports k.val
    { s with fab := { s.fab with ports := Sparse.put s.fab.ports k.val { x with
      writeCredits := Sparse.put x.writeCredits c.val (Sparse.get 2 x.writeCredits c.val + (os.length - back))
      poolCredits := Sparse.put x.poolCredits c.val (Sparse.get 0 x.poolCredits c.val + grant) } } }
  | _, _ => s

/-- A management flit comes to the warden of district `d`: heartbeats are counted as they arrive (R37, R550); replies have buffers of
their own at the registry (R293). What a hole calls for is done by HOLE_SENSE (R275). -/
def State.stripMsg (s : State) (d : Nat) (m : MgmtMsg) : State :=
  match m with
  | .registryBeat => if d = s.core.deputy then { s with core := { s.core with hbMissed := 0 } } else s
  | .beat e => s.modDist e (fun x => { x with hbMissed := 0 })
  | .hole _ => s
  | .reply _ => s

/-- A flit comes to its sink: into a parcel unless its local port is closed (R235, R262); acknowledgements of a port and management flits
are dealt with as they come. -/
def State.intoSink (s : State) (f : Flit) (leg : Nat) (e : Endpoint) : State :=
  match e, f.payload with
  | .parcel p, _ => if s.portClosed p then s else s.putFlit f leg (.sink e)
  | _, .ackCount .. => s.blockAck e f.payload
  | .warden d, .mgmt m => s.stripMsg d.val m
  | _, .mgmt _ => s
  | _, _ => s.putFlit f leg (.sink e)

/-- A flit that left router `r` through an output. -/
def State.sendOn (s : State) (r : Pid) (f : Flit) (out leg : Nat) : State :=
  if out = 4 then s.intoSink f leg (.parcel r)
  else if out = 5 then
    if leg = 3 then
      (match nearestEdge (fun x => x.1 == f.wayd) (chainPlace f.dst) with
      | some i => s.putFlit f 3 (.chain ⟨edgeJunction i (chainPlace f.dst) % 384, Nat.mod_lt _ (by decide)⟩)
      | none => s)
    else s.intoSink f leg f.dst
  else match neighbour r out with
    | none => s.detourDrop r f
    | some (q, inp) => (s.modRtr r (fun x => x.useCredit out f.vc leg)).putFlit f leg (.link q inp)

/-- The easement of a tenant (R289). -/
def State.easeOf (s : State) (t : Nat) : Nat := Sparse.get 0 s.net.ease t

/-- One grant of an output of router `r`: nothing while the output is taken by an earlier flit of the cycle. -/
def State.grant (s : State) (r : Pid) (out : Nat) : State :=
  let x := (s.parcel r).rtr
  if s.clk.fclk < Sparse.get 0 x.busy out then s
  else
    let hs := (s.heads r out).filter (fun h => s.ready r h.1 out h.2)
    match arbitrate x s.easeOf out s.clk.fclk (s.reservedNow r out) hs with
    | none => s
    | some g =>
      let c := s.copyOf g.flit
      let s1 := (s.unbuffer g.flit out).modRtr r (fun x => x.granted s.easeOf out s.clk.fclk hs g)
      ({ s1 with net := { s1.net with nextFlit := c.2 } }).sendOn r c.1 out g.leg

/-! ### FLIT_ARRIVAL -/

/-- The outputs of a multicast flit at a router, with the legs beyond (R287). -/
def State.treeOutputs (s : State) (t : Nat) (r : Pid) (leg : Nat) : List (Nat × Nat) :=
  ((Sparse.get {} s.net.routes t).hops.filter (fun h => h.r == r.key && h.leg == leg)).map (fun h => (h.out, h.legOut))

/-- The outputs that a flit takes at router `r`: by DST, LEG and WAYD (R269), or by its tree (R287). -/
def State.outputsOf (s : State) (r : Pid) (f : Flit) : List (Nat × Nat) :=
  match f.dst with
  | .tree t => s.treeOutputs t r f.leg
  | _ => (routeAt (s.tableOf r.d.val) r f.dst f.src.unit f.leg f.wayd).toList

/-- Whether a VC0 flit that comes from another router finds none of its outputs in a cycle reserved for VC0 (R297). -/
def State.missesSlot (s : State) (r : Pid) (inp : Fin 5) (f : Flit) (os : List (Nat × Nat)) : Bool :=
  f.vc == 0 && inp != 4 && os.any (fun o => decide (o.1 < 4) && !s.reservedNow r o.1)

/-- A flit taken into the buffer of its input port with the outputs it is to leave through; copies for a DEAD port are dropped. -/
def State.enbuffer (s : State) (r : Pid) (inp : Fin 5) (f : Flit) (os : List (Nat × Nat)) : State :=
  let x := (s.parcel r).rtr
  let dead := os.filter (fun o => x.deadOut o.1)
  let live := os.filter (fun o => !x.deadOut o.1)
  let s1 := if live.isEmpty then s.dropFlit f.id else s.moveFlit { f with loc := .buf r inp, outs := live }
  let s2 := dead.foldl (fun (t : State) _ => t.modParcel r (fun ps =>
    { ps with rtr := { ps.rtr with detourDrop := satAdd 16 ps.rtr.detourDrop 1 } }.dataFault .detour (s.flitStep f))) s1
  if s.missesSlot r inp f live then s2.modRtr r (fun y => { y with planMiss := satAdd 16 y.planMiss 1 }) else s2

/-- FLIT_ARRIVAL: flit `id` reaches the router at the end of its link. It is lost where the district does not forward (R262, R276); dropped
where it is malformed, uncorrectable or has nowhere to go (R265), or for a DEAD port (R276); else it takes its buffer, and each output
it is to leave through grants a head (R267 to R269, R288). -/
def State.flitArrival (s : State) (id : Nat) (uncorrectable : Bool) : State :=
  match s.flit id with
  | none => s
  | some f =>
    match f.loc with
    | .link r inp =>
      let os := s.outputsOf r f
      if !forwards (s.dist r.d.val).st then s.dropFlit id
      else if uncorrectable || f.vc ≥ 6 || f.typ ≥ 7 || os.isEmpty then s.detourDrop r f
      else os.foldl (fun (t : State) o => t.grant r o.1) (s.enbuffer r inp f os)
    | _ => s

/-- FLIT_ARRIVAL. -/
def execFlitArrival (flit : Nat) (uncorrectable : Bool) (s : State) : Out := .next (s.flitArrival flit uncorrectable)

/-! ### CREDIT_RETURN -/

/-- CREDIT_RETURN: the router beyond an output frees a buffer, so a credit comes back and the output grants a head
(R267, R268). No credit returns while every buffer it stands for is taken. -/
def State.creditReturn (s : State) (p : Pid) (out vc leg : Nat) : State :=
  let k := creditKey out vc leg
  match neighbour p out with
  | none => s
  | some (q, inp) =>
    if Sparse.get 0 (s.parcel p).rtr.used k ≤ s.occupancy q inp vc leg then s
    else (s.modRtr p (fun x => { x with used := Sparse.put x.used k (Sparse.get 0 x.used k - 1) })).grant p out

/-- CREDIT_RETURN. -/
def execCreditReturn (p : Pid) (outPort : Fin 5) (vc : Fin 6) (leg : Fin 4) (s : State) : Out :=
  .next (s.creditReturn p outPort.val vc.val leg.val)

/-- The heads that wait for a port which has become DEAD are dropped, and so is what waits behind them for it (R276). -/
def State.dropDead (s : State) (r : Pid) : State :=
  let x := (s.parcel r).rtr
  (s.net.flits.filter (fun f => (match f.loc with | .buf q _ => q == r | _ => false) &&
      f.outs.any (fun o => x.deadOut o.1))).foldl (fun (t : State) f =>
    let live := f.outs.filter (fun o => !x.deadOut o.1)
    if live.isEmpty then t.detourDrop r f
    else
      let u := { t with net := { t.net with flits := t.net.flits.map (fun (g : Flit) =>
        if g.id = f.id then { g with outs := live } else g) } }
      u.modParcel r (fun ps =>
        { ps with rtr := { ps.rtr with detourDrop := satAdd 16 ps.rtr.detourDrop 1 } }.dataFault .detour (s.flitStep f))) s

/-! ### The edge chain (R279, R280) -/

/-- The junction that a flit in the chain makes for: in leg 3 the nearer end of its block's edge; in leg 0 the near end of the nearest live
edge. -/
def State.chainGoal (s : State) (f : Flit) : Nat :=
  if f.leg = 3 then
    let j := chainPlace f.dst
    match nearestEdge (fun x => x.1 == f.wayd) j with
    | some i => 12 * j + (if i < j then 0 else 11)
    | none => 0
  else
    let j := chainPlace f.src
    match nearestEdge (fun x => s.live x.1) j with
    | some i => edgeJunction i j
    | none => 0

/-- Where a flit that has come to its junction leaves the chain for: its block, or the entry parcel in leg 1. -/
def State.leaveChain (s : State) (f : Flit) : State :=
  if f.leg = 3 then if s.sinkOpen f.dst f.vc then (s.dropFlit f.id).intoSink f 3 f.dst else s
  else
    let j := chainPlace f.src
    match nearestEdge (fun x => s.live x.1) j with
    | none => s.dropFlit f.id
    | some i =>
      let x := outerEdges.getD i (0, 0)
      let r := pidOf (144 * x.1 + entryParcel i j)
      let inp : Fin 5 := ⟨x.2 % 4, by omega⟩
      if s.occupancy r inp f.vc 1 < legBuffers 1 then s.moveFlit { f with leg := 1, loc := .link r inp } else s

/-- One FCLK cycle of a flit in the chain: it leaves at its junction, or takes an along step where the next junction has its buffer
free. -/
def State.chainStep (s : State) (f : Flit) : State :=
  match f.loc with
  | .chain j =>
    let g := s.chainGoal f
    if j.val = g then s.leaveChain f
    else
      let k : Fin 384 := ⟨(if j.val < g then j.val + 1 else j.val - 1) % 384, Nat.mod_lt _ (by decide)⟩
      if s.junctionFree k f.vc f.leg then s.moveFlit { f with loc := .chain k } else s
  | _ => s

/-- The flits of the chain that take a step in a cycle: one for each junction and direction, in the order of the VCs (R268). -/
def State.chainMovers (s : State) : List Flit :=
  let fs := s.net.flits.filter (fun f => match f.loc with | .chain _ => true | _ => false)
  let up (f : Flit) : Bool := match f.loc with | .chain j => decide (j.val < s.chainGoal f) | _ => false
  fs.filter (fun f => fs.all (fun g => f.id == g.id || f.loc != g.loc || up f != up g ||
    decide (vcOrder.idxOf f.vc < vcOrder.idxOf g.vc)))

/-! ### What an FCLK cycle does by itself (R268, R279) -/

/-- One FCLK cycle of the lanes: flits move along the chain, every output with a head that waits grants one, and flits at their sources
enter where buffers are free. DESIGN CHOICE (log 2): this is part of what time does. -/
def State.lanesCycle (s : State) : State :=
  let s1 := s.chainMovers.foldl State.chainStep s
  let rs := (s1.net.flits.filterMap (fun f => match f.loc with | .buf r _ => some r | _ => none)).eraseDups
  let s2 := rs.foldl (fun (t : State) r => (List.range 6).foldl (fun (u : State) o => u.grant r o) t) s1
  let waiting := s2.net.flits.filter (fun f => f.loc == .source)
  (waiting.filter (fun f => (waiting.find? (fun g => g.src == f.src && g.vc == f.vc)).any (fun g => g.id == f.id))).foldl
    State.letIn s2

end Sys2Proof.Machine
end

