-- ==== Sys2Proof/Machine/LotUnit.lean ====
section
/-!
DEFINITION. The analogue lots and the digital correction path (02 R47 to R79, 03 R80 to R108, 07 R208 to R211).

An LMV runs in one step up to its output entry (phases, halvings, checks, re-reads, drift samples), or to the read at which it
stalls for INPUT_SAVE (R102); its correction job and output stage come after. What the analogue array adds to the exact sum of R57
(noise, drift) is the command's operand: a list of (conversion, column, amount in 1/256 LSB).
-/
namespace Sys2Proof.Machine

/-! ### Integer rounding -/

/-- `a / b` rounded to nearest, ties to even. -/
def rneDiv (a : Int) (b : Nat) : Int :=
  let q := a / (b : Int)
  let r := 2 * (a - q * (b : Int))
  if r > (b : Int) || (r == (b : Int) && q % 2 != 0) then q + 1 else q

/-- A clamp. -/
def clampTo (lo hi x : Int) : Int := max lo (min hi x)

/-! ### The correction block (R81, R83, R84) -/

/-- The offset of lot `l`'s correction block. -/
def cbBase (l : Nat) : Nat := 0x570000 + l * 0x8000

/-- An unsigned little-endian field of the block. -/
def ParcelState.cbNat (ps : ParcelState) (l off n : Nat) : Nat := leNat (ps.read (cbBase l + off) n)

/-- A signed field of the block. -/
def ParcelState.cbInt (ps : ParcelState) (l off n : Nat) : Int := leInt (ps.read (cbBase l + off) n)

/-- The column group of a read column: checksum and drift-reference column j belong to group j (R92). -/
def colGroup (c : Nat) : Nat := if c < 1024 then c / 128 else (c - 1024) % 8

/-- rho_c of R92. -/
def snapRho (ps : ParcelState) (l c : Nat) : Nat :=
  min 65535 (rneDiv ((ps.cbNat l (0x200 + 4 * c + 2) 2 * ps.cbNat l (0x8 + 2 * colGroup c) 2 : Nat) : Int) 16384).toNat

/-- beta_c of R92. -/
def snapBeta (ps : ParcelState) (l c : Nat) : Int :=
  clampTo (-32768) 32767 (ps.cbInt l (0x200 + 4 * c) 2 + ps.cbInt l (0x18 + 2 * colGroup c) 2)

/-- The snapshot of lot `l`. -/
def snapshot (ps : ParcelState) (l : Nat) : Snap :=
  { rho := (List.range 1040).map (snapRho ps l)
    beta := (List.range 1040).map (snapBeta ps l)
    refRho := (List.range 8).map (fun j => ps.cbNat l (0x200 + 4 * (1032 + j) + 2) 2)
    refBeta := (List.range 8).map (fun j => ps.cbInt l (0x200 + 4 * (1032 + j)) 2)
    groupD := (List.range 8).map (fun j => ps.cbNat l j 1)
    cp := (ps.lot l).cp
    noTrack := (ps.lot l).noTrack }

/-- An outlier entry (R84): row, column, value. -/
structure Outlier where
  row : Nat
  col : Nat
  kind : Bool
  val : Int
deriving DecidableEq, Repr

/-- The entry of a 32-bit word (R84). -/
def outlierOf (w : Nat) : Outlier :=
  { row := w / 2 ^ 22 % 1024, col := w / 2 ^ 12 % 1024, kind := w / 2 ^ 11 % 2 = 1,
    val := (BitVec.ofNat 11 w).toInt }

/-- The first `n` entries of lot `l`'s outlier list (R86). -/
def outlierEntries (ps : ParcelState) (l n : Nat) : List Outlier :=
  (List.range n).map (fun i => outlierOf (ps.cbNat l (0x4000 + 4 * i) 4))

/-- The outlier list of lot `l` (R86). -/
def outliers (ps : ParcelState) (l : Nat) : List Outlier := outlierEntries ps l (ps.lot l).cp.outliers

/-! ### Sites, rows and columns (R47 to R49, R55, R73) -/

/-- The target of remap entry `e` of a table of registers, where it is valid (R78). -/
def remapEntry (t : Sparse Word) (e : Nat) : Option Nat :=
  let f := (Sparse.get 0 t (e / 4)).toNat / 2 ^ (16 * (e % 4)) % 65536
  if f ≥ 32768 then some (f % 2048) else none

/-- Valid entries of a remap table (ROW_USED, COL_USED). -/
def remapUsed (t : Sparse Word) : Nat := ((List.range 16).filter (fun e => (remapEntry t e).isSome)).length

/-- The spare that stands in for `x`, if any. -/
def spareOf (t : Sparse Word) (x : Nat) : Option Nat := (List.range 16).find? (fun e => remapEntry t e == some x)

/-- The physical row that logical data row `r` drives (R55, R73). -/
def physRow (x : LotState) (r : Nat) : Nat := match spareOf x.rowRemap r with | some e => 1024 + e | none => r

/-- The physical column that read column `c` converts (R56, R73). -/
def physCol (x : LotState) (c : Nat) : Nat := match spareOf x.colRemap c with | some e => 1040 + e | none => c

/-- The weight of a physical site: w = L+ − L− (R47). -/
def siteWeight (x : LotState) (r c : Nat) : Int :=
  let p := Sparse.get (0, 0) x.cells (1056 * r + c)
  (p.1 : Int) - (p.2 : Int)

/-- The sum of R57 over the rows of a group at read column `c`: one unit per weight unit on an energised row. -/
def columnSum (x : LotState) (rows : List Nat) (c : Nat) : Int :=
  let pc := physCol x c
  let pr := rows.map (physRow x)
  (x.cells.map (fun e =>
    if e.1 % 1056 = pc && pr.contains (e.1 / 1056) then (e.2.1 : Int) - (e.2.2 : Int) else 0)).sum

/-- Nominal gain in Q14 (R57). -/
def gainOf (x : LotState) (c : Nat) : Int := Sparse.get 16384 x.gain c

/-- What disturbs conversion `i` at column `c`, in 1/256 LSB. -/
def disturbAt (ds : List (Nat × Nat × Int)) (i c : Nat) : Int :=
  (ds.map (fun d => if d.1 = i && d.2.1 = c then d.2.2 else 0)).sum

/-- The code of read column `c` in conversion `i` (R57). -/
def convertCode (x : LotState) (ds : List (Nat × Nat × Int)) (rows : List Nat) (i c : Nat) : Int :=
  clampTo (-128) 127
    (rneDiv (gainOf x c * columnSum x rows c + 64 * (Sparse.get 0 x.offs c + disturbAt ds i c)) 16384)

/-- The 1,040 codes of a conversion. -/
def convert (x : LotState) (ds : List (Nat × Nat × Int)) (rows : List Nat) (i : Nat) : List Int :=
  (List.range 1040).map (convertCode x ds rows i)

/-- An end code (R57). -/
def endCode (k : Int) : Bool := k == -128 || k == 127

/-- Data columns at an end code. -/
def endCount (codes : List Int) : Nat := ((codes.take 1024).filter endCode).length

/-! ### Phases (R51 to R54) -/

/-- The low `n` bits of an input code, as a signed number (R51). -/
def inputValue (n : Nat) (b : Byte) : Int := (BitVec.ofNat n b.toNat).toInt

/-- The weight of plane `k` at width `n`. -/
def planeWeight (n k : Nat) : Int := if k + 1 = n then -(2 ^ k : Nat) else (2 ^ k : Nat)

/-- The logical rows with bit `k` of their code set, ascending. -/
def planeRows (codes : List Byte) (k : Nat) : List Nat :=
  (List.range 1024).filter (fun r => (codes.getD r 0).getLsbD k)

/-- The phases of an input at width `n`: groups of at most 256 rows with their plane's weight, from plane n − 1 down
(R54). -/
def formPhases (n : Nat) (codes : List Byte) : List (List Nat × Int) :=
  ((List.range n).reverse).flatMap (fun k =>
    (chunks 256 4 (planeRows codes k)).map (fun g => (g, planeWeight n k)))

/-- Empty planes. -/
def emptyPlanes (n : Nat) (codes : List Byte) : Nat :=
  ((List.range n).filter (fun k => (planeRows codes k).isEmpty)).length

/-! ### Check, re-read, commit (R60, R89, R90, R95 to R100) -/

/-- The code of read column `c`. -/
def codeAt (codes : List Int) (c : Nat) : Int := codes.getD c 0

/-- Whether group `j` is checked on these codes: its checksum and data columns hold no end code (R96). -/
def checkable (codes : List Int) (j : Nat) : Bool :=
  !endCode (codeAt codes (1024 + j)) && (List.range 128).all (fun i => !endCode (codeAt codes (128 * j + i)))

/-- Delta of R95. -/
def checkDelta (ps : ParcelState) (l : Nat) (sn : Snap) (rows : List Nat) (codes : List Int) (j : Nat) : Int :=
  let ej := (rows.map (fun r => ps.cbInt l (0x1400 + 8 * r + j) 1)).sum
  let uj := ((List.range 128).map (fun i =>
    (sn.rho.getD (128 * j + i) 0 : Int) * (256 * codeAt codes (128 * j + i) - sn.beta.getD (128 * j + i) 0))).sum
  let k := 1024 + j
  let vj := (2 ^ sn.groupD.getD j 0 : Nat) * (sn.rho.getD k 0 : Int) * (256 * codeAt codes k - sn.beta.getD k 0)
  uj - vj - ej * (2 ^ 22 : Nat)

/-- The groups with a check: CHECK_EN is 1 and GROUP_D is not 0xFF (R81, R96). -/
def checkedGroups (sn : Snap) : List Nat :=
  if sn.cp.checkEn then (List.range 8).filter (fun j => sn.groupD.getD j 0 ≠ 255) else []

/-- The groups that fail their check on these codes (R95), and how many checks are skipped (R96). -/
def checkRead (ps : ParcelState) (l : Nat) (sn : Snap) (rows : List Nat) (codes : List Int) : List Nat × Nat :=
  let gs := checkedGroups sn
  (gs.filter (fun j => checkable codes j &&
      (checkDelta ps l sn rows codes j).natAbs > sn.cp.thresh * 2 ^ 20),
    (gs.filter (fun j => !checkable codes j)).length)

/-- Per-column rounded mean of `n` reads given by their sum (R97). -/
def meanCodes (n : Nat) (reads : List (List Int)) : List Int :=
  (List.range 1040).map (fun c => rneDiv ((reads.map (fun r => codeAt r c)).sum) n)

/-- E_ref of R89. -/
def expectedRef (rows : List Nat) (j : Nat) : Int :=
  7 * ((rows.filter (fun r => r % 64 = 2 * j)).length : Int) - 7 * ((rows.filter (fun r => r % 64 = 2 * j + 1)).length : Int)

/-- The drift samples of a committed read (R90). -/
def driftSamples (sn : Snap) (rows : List Nat) (codes : List Int) : List Sample :=
  if sn.cp.driftMode = 0 then []
  else (List.range 8).filterMap (fun j =>
    let k := codeAt codes (1032 + j)
    if endCode k || sn.noTrack.getLsbD j then none
    else some ⟨j, expectedRef rows j, rneDiv ((sn.refRho.getD j 0 : Int) * (256 * k - sn.refBeta.getD j 0)) 16384⟩)

/-- A read committed: accumulators, B, clamps, drift samples (R58, R60, R93, R98). -/
def commitRead (sn : Snap) (rows : List Nat) (wk : Int) (codes : List Int) (r : Run) : Run :=
  { r with
    acc := List.zipWith (fun a c => a + wk * c) r.acc codes
    b := r.b + wk
    clamps := r.clamps + endCount codes
    samples := r.samples ++ driftSamples sn rows codes }

/-- A read of a phase or half-phase that stands: checked, read again where a group fails, and committed (R95 to R100).
Its conversion is already counted. -/
def checkAndCommit (ps : ParcelState) (l : Nat) (ds : List (Nat × Nat × Int)) (sn : Snap) (rows : List Nat) (wk : Int)
    (first : List Int) (r : Run) : Run :=
  let x := ps.lot l
  let c1 := checkRead ps l sn rows first
  let r := { r with skips := r.skips + c1.2 }
  if c1.1.isEmpty then commitRead sn rows wk first r
  else
    let again := convert x ds rows r.conv
    let mean2 := meanCodes 2 [first, again]
    let c2 := checkRead ps l sn rows mean2
    let r := { r with
      conv := r.conv + 1
      phases := r.phases + 1
      checkFail := r.checkFail + 1
      rereads := r.rereads + 1
      skips := r.skips + c2.2 }
    if c2.1.isEmpty then commitRead sn rows wk mean2 r
    else
      let mean4 := meanCodes 4 [first, again, convert x ds rows r.conv, convert x ds rows (r.conv + 1)]
      let c4 := checkRead ps l sn rows mean4
      commitRead sn rows wk mean4
        { r with
          conv := r.conv + 2
          phases := r.phases + 2
          rereads := r.rereads + 2
          skips := r.skips + c4.2
          persist := r.persist ++ c4.1 }

/-- One read of an LMV: what it leaves, and the reads it puts in front of the rest. A phase of two rows or more that holds an
end code on a data column is discarded and its two halves are read (R60). -/
def runRead (ps : ParcelState) (l : Nat) (ds : List (Nat × Nat × Int)) (sn : Snap) (rd : Read) (r : Run) : Run × List Read :=
  let codes := convert (ps.lot l) ds rd.rows r.conv
  let r1 := { r with conv := r.conv + 1, phases := r.phases + 1 }
  if !rd.half && rd.rows.length ≥ 2 && endCount codes > 0 then
    let h := (rd.rows.length + 1) / 2
    ({ r1 with halvings := r1.halvings + 1 },
      [{ rd with rows := rd.rows.take h, half := true }, { rd with rows := rd.rows.drop h, half := true }])
  else (checkAndCommit ps l ds sn rd.rows rd.wk codes r1, [])

/-- The reads of an LMV in turn, at most `fuel`: what they leave, and the reads still to make where the run stops. It stops at a
persistent failure while INPUT_SAVE is not free for this LMV (`save`, R102). -/
def runReads (ps : ParcelState) (l : Nat) (ds : List (Nat × Nat × Int)) (sn : Snap) (save : Bool) :
    Nat → List Read → Run → Run × List Read
  | 0, rs, r => (r, rs)
  | _, [], r => (r, [])
  | fuel + 1, rd :: rs, r =>
    let q := runRead ps l ds sn rd r
    let rest := q.2 ++ rs
    if !save && q.1.persist.length > r.persist.length then (q.1, rest) else runReads ps l ds sn save fuel rest q.1

/-- The reads of an input: one for each phase of R54. -/
def inputReads (n : Nat) (codes : List Byte) : List Read :=
  (formPhases n codes).map (fun ph => { rows := ph.1, wk := ph.2, half := false })

/-! ### Output (R63, R88, R93, R101, R104) -/

/-- o_c of R88. -/
def outlierSum (os : List Outlier) (n : Nat) (codes : List Byte) (c : Nat) : Int :=
  (os.map (fun o => if o.col = c then inputValue n (codes.getD o.row 0) * o.val else 0)).sum

/-- The first term of a_c: the accumulator with gain and offset corrected (R93). -/
def analogue (sn : Snap) (r : Run) (c : Nat) : Int :=
  rneDiv ((sn.rho.getD c 0 : Int) * (256 * codeAt r.acc c - sn.beta.getD c 0 * r.b)) 16384

/-- a_c of R93. -/
def adjusted (sn : Snap) (r : Run) (os : List Outlier) (n : Nat) (codes : List Byte) (c : Nat) : Int :=
  analogue sn r c + 256 * outlierSum os n codes c

/-- The exact a_c of R101, from the image weights `w`. -/
def exactSum (w : Nat → Nat → Int) (os : List Outlier) (n : Nat) (codes : List Byte) (c : Nat) : Int :=
  256 * (((List.range 1024).map (fun r => inputValue n (codes.getD r 0) * w r c)).sum + outlierSum os n codes c)

/-- y_c of R63 from a_c in Q.8, with what it counts; a zero product is +0. -/
def outputValue (sc : BitVec 16) (e : Nat) (a : Int) : F32 × Ev :=
  match Val.ofBf16 sc with
  | .fin s m x =>
    if a = 0 || m = 0 then (0, {})
    else (Val.fin (s != decide (a < 0)) (m * a.natAbs) (x + (e : Int) - 127 - 8)).toF32Ev
  | _ => (qnan, {})

/-- Outputs of columns `cs`. -/
def outputs (x : LotState) (e : Nat) (a : Nat → Int) (cs : List Nat) : List F32 × Ev :=
  let rs := cs.map (fun c => outputValue (Sparse.get 0 x.scales c) e (a c))
  (rs.map Prod.fst, rs.foldl (fun ev r => ev.plus r.2) {})

/-- The least shift, at most `fuel`, that keeps two updated sums below two to the 63 (R104). -/
def auditShift (a b c d : Nat) : Nat → Nat → Nat
  | 0, k => k
  | f + 1, k =>
    if a / 2 ^ k + b / 2 ^ k < 2 ^ 63 && c / 2 ^ k + d / 2 ^ k < 2 ^ 63 then k else auditShift a b c d f (k + 1)

/-- RESID of R104 from the two sums. -/
def residOf (e r : Nat) : Nat :=
  let k := isqrt (2 ^ 32 * e / r) 48 0
  let l := (2 * k + 1) * (2 * k + 1) * r
  let q := 4 * 2 ^ 32 * e
  min 65535 (if q > l || (q == l && k % 2 == 1) then k + 1 else k)

/-- An audit of lot `l` with errors' and references' squares `e2`, `r2` (R104, R105). -/
def ParcelState.audit (ps : ParcelState) (l e2 r2 : Nat) : ParcelState :=
  let a := ps.cbNat l 0x28 8
  let c := ps.cbNat l 0x30 8
  let k := auditShift a e2 c r2 200 0
  let err := a / 2 ^ k + e2 / 2 ^ k
  let ref := c / 2 ^ k + r2 / 2 ^ k
  let ps := ps.write (cbBase l + 0x28) (leBytes err 8 ++ leBytes ref 8)
  ps.modLot l (fun x => { x with
    audits := satAdd 16 x.audits 1
    auditNumber := x.auditNumber + 1
    resid := if ref > 0 then residOf err ref else x.resid })

/-- One drift sample added to the record of its group; a record that reaches 4,096 samples is taken for fitting and
restarts (R90, R91). -/
def ParcelState.addSample (l : Nat) (ps : ParcelState) (sm : Sample) : ParcelState :=
  let o := 0x40 + 24 * sm.group
  let em := ps.cbInt l o 8 + sm.e * sm.m
  let e := ps.cbInt l (o + 8) 4 + sm.e
  let e2 := (ps.cbNat l (o + 12) 4 : Int) + sm.e * sm.e
  let m := ps.cbInt l (o + 16) 4 + sm.m
  let n := ps.cbNat l (o + 20) 2 + 1
  if n ≥ 4096 then
    (ps.write (cbBase l + o) (leBytes 0 22)).modLot l (fun x => { x with
      fits := x.fits ++ [{ group := sm.group, sumEm := em, sumE := e, sumE2 := e2, sumM := m }] })
  else
    ps.write (cbBase l + o) (intBytes em 8 ++ intBytes e 4 ++ intBytes e2 4 ++ intBytes m 4 ++ leBytes n 2)

/-- The recompute event of R100: type 0x80, with the groups in bits 55:48, the lot in bits 47:40 and the LMV's number in
bits 39:0. DESIGN CHOICE (log 10): the manual does not give the payload's layout. -/
def recomputeEvent (l id : Nat) (groups : List Nat) : Word :=
  BitVec.ofNat 64 (0x80 * 2 ^ 56 + (groups.map (fun g => 2 ^ g)).sum * 2 ^ 48 + l * 2 ^ 40 + id % 2 ^ 40)

/-- Groups that failed persistently, each once, ascending. -/
def failingGroups (r : Run) : List Nat := (List.range 8).filter (fun j => r.persist.contains j)

/-! ### The steps of an LMV (R68, R211) -/

/-- The bytes an LMV writes (R209). -/
def lmvOutBytes (ofmt : Nat) : Nat := match ofmt with | 0 => 4096 | 1 => 2176 | _ => 1088

/-- The lot operand exception of an LMV when its lot runs it (R234). -/
def lmvBad (w : LmvWork) : Bool :=
  w.ofmt = 3 || (w.accum && w.ofmt ≠ 0) || !unitOpen w.fw w.src 1025 || !unitOpen w.fw w.dst (lmvOutBytes w.ofmt) ||
  w.dst % 4 ≠ 0 || w.src % 8 ≠ 0 || overlap w.src 1025 w.dst (lmvOutBytes w.ofmt)

/-- The queue entry of an LMV or LMVA, its registers read at issue (R194). -/
def lmvWork (ps : ParcelState) (accum : Bool) (o : LmvOps) (l id : Nat) : LmvWork :=
  { id := id
    accum := accum
    tag := o.tag
    tk := o.tk
    logical := o.lot.toNat
    phys := ⟨l % 18, Nat.mod_lt _ (by decide)⟩
    n := o.nm1.toNat + 1
    ofmt := o.ofmt.toNat
    src := (ps.gReg o.rs.toNat).toNat
    dst := (ps.gReg o.rd.toNat).toNat
    fw := ps.swp.fw
    epc := ps.pc }

/-- Issue of LMV or LMVA (R69, R199, R209): a logical lot without a valid map entry is caught at issue, completes its
token and stops issue with LOT = 31; else the instruction enters its lot's queue of 4. -/
def lmvIssue (accum : Bool) (p : Pid) (o : LmvOps) (s : State) : Out :=
  s.issueAt p 3 (o.rsv ≠ 0) (fun ps =>
    match ps.mapEntry o.lot.toNat with
    | none =>
      if ps.token o.tk.toNat ≥ 255 then .full
      else .done (ps.raise 6 1 o.tag.toNat 31 ps.pc ps.swp.fw) ps.next
    | some l =>
      ps.issueUnit 3 o.tk ((ps.lot l).queue.length < 4) (fun q id =>
        q.modLot l (fun x => { x with queue := x.queue ++ [lmvWork ps accum o l id] }))) o.tag.toNat

/-- LMV. -/
def execLmv (p : Pid) (o : LmvOps) (s : State) : Out := lmvIssue false p o s
/-- LMVA. -/
def execLmva (p : Pid) (o : LmvOps) (s : State) : Out := lmvIssue true p o s

/-- The head of a lot queue that is earliest in issue order over the parcel (R211). -/
def ParcelState.firstFill (ps : ParcelState) : Option (Nat × LmvWork) :=
  (List.range 18).foldl (fun best l =>
    match (ps.lot l).queue with
    | [] => best
    | w :: _ =>
      match best with
      | none => some (l, w)
      | some (_, w') => if w.id < w'.id then some (l, w) else best) none

/-- A lot operand exception: the instruction and those queued behind it are discarded and their tokens complete (R199). -/
def ParcelState.lotFault (ps : ParcelState) (l : Nat) (w : LmvWork) : ParcelState :=
  let q := (ps.lot l).queue
  ((ps.modLot l (fun x => { x with queue := [] })).raise 6 1 w.tag.toNat l w.epc w.fw).completeAll
    (q.map (fun v => (v.id, v.tk)))

/-- STAGING_FILL: the parcel's next fill in issue order begins once its lot has a free staging entry; it reads 1,024 codes
and the scale byte (R209, R211). -/
def ParcelState.stagingFill (ps : ParcelState) : ParcelState :=
  match ps.firstFill with
  | none => ps
  | some (l, w) =>
    if (ps.lot l).staging.length ≥ 2 then ps
    else if lmvBad w then ps.lotFault l w
    else ps.modLot l (fun x => { x with
      queue := x.queue.drop 1
      staging := x.staging ++ [{ work := w, codes := ps.read w.src 1024, e := (ps.read (w.src + 1024) 1).headD 0 }] })

/-- STAGING_FILL. -/
def execStagingFill (p : Pid) (s : State) : Out := .next (s.modParcel p ParcelState.stagingFill)

/-- An LMV that forms no phase puts `y` into the output queue (R64, R71, R635). -/
def ParcelState.lmvNoPhase (ps : ParcelState) (l : Nat) (st : Staged) (y : F32) (nan : Bool) : ParcelState :=
  let ps' := ps.modLot l (fun x => { x with
    staging := x.staging.drop 1
    lastPhases := 0
    lmvDone := satAdd 32 x.lmvDone 1
    lmvSkip := if nan then x.lmvSkip else satAdd 32 x.lmvSkip 1
    planesSkipped := if nan then x.planesSkipped else satAdd 32 x.planesSkipped st.work.n
    outq := x.outq ++ [{ work := st.work, y := List.replicate 1024 y, e := st.e }] })
  if nan then ps'.count st.work.tag.toNat { nanOut := 1 } else ps'

/-- The counters that a run leaves in its lot, but for what `c` says is counted already (R78, R79, R100, R108). -/
def LotState.countRun (x : LotState) (r c : Run) : LotState :=
  { x with
    phases := satAdd 32 x.phases (r.phases - c.phases)
    halvings := satAdd 32 x.halvings (r.halvings - c.halvings)
    clamps := satAdd 32 x.clamps (r.clamps - c.clamps)
    checkFail := satAdd 32 x.checkFail (r.checkFail - c.checkFail)
    rereads := satAdd 32 x.rereads (r.rereads - c.rereads)
    checkSkip := satAdd 32 x.checkSkip (r.skips - c.skips)
    persist := satAdd 16 x.persist (r.persist.length - c.persist.length)
    persistSince := x.persistSince + (r.persist.length - c.persist.length)
    flag := x.flag || !r.persist.isEmpty }

/-- The state that a completed LMV leaves in its lot (R78, R79, R104). -/
def LotState.afterRun (x : LotState) (r c : Run) (skipped : Nat) : LotState :=
  { x.countRun r c with
    lastPhases := r.phases
    lmvDone := satAdd 32 x.lmvDone 1
    planesSkipped := satAdd 32 x.planesSkipped skipped
    lmvNumber := x.lmvNumber + 1 }

/-- The audit of an LMV, where its number calls for one (R104). -/
def ParcelState.maybeAudit (ps : ParcelState) (l : Nat) (a ax : Nat → Int) : ParcelState :=
  let x := ps.lot l
  if x.cp.auditLog2 = 0 || x.lmvNumber % 2 ^ x.cp.auditLog2 ≠ 0 then ps
  else
    let cs := (List.range 128).map (fun i => 128 * (x.auditNumber % 8) + i)
    ps.audit l ((cs.map (fun c => ((a c - ax c) * (a c - ax c)).natAbs)).sum)
      ((cs.map (fun c => (ax c * ax c).natAbs)).sum)

/-- The end of an LMV that formed phases, its reads made as `r` says, of which `c` is counted already: counters, drift samples,
audit, INPUT_SAVE where a group failed (R100), and the output entry, whose correction job is queued to the DME (R88). `w` are the
image weights an audit computes with. -/
def ParcelState.lmvFinish (ps : ParcelState) (l : Nat) (st : Staged) (sn : Snap) (r c : Run) (w : Nat → Nat → Int) : ParcelState :=
  let n := st.work.n
  let bad := failingGroups r
  let os := outlierEntries ps l sn.cp.outliers
  let ps1 := r.samples.foldl (ParcelState.addSample l)
    (ps.modLot l (fun x => { x.afterRun r c (emptyPlanes n st.codes) with stalled := none }))
  let ps2 := ps1.maybeAudit l (adjusted sn r os n st.codes) (exactSum w os n st.codes)
  let ps3 := if bad.isEmpty then ps2 else ps2.write (cbBase l + 0x3400) st.codes
  let ps4 := ps3.modLot l (fun x => { x with
    staging := x.staging.drop 1
    saveHeld := if bad.isEmpty then x.saveHeld else some st.work.id
    outq := x.outq ++ [{
      work := st.work
      e := st.e
      codes := st.codes
      count := sn.cp.outliers
      a := (List.range 1024).map (analogue sn r)
      failing := bad
      recomputed := bad.isEmpty
      jobDone := false }] })
  let ps5 := ParcelState.count { ps4 with dme := { ps4.dme with jobs := ps4.dme.jobs ++ [(st.work.id, st.work.phys)] } }
    st.work.tag.toNat { sat := r.clamps }
  if bad.isEmpty then ps5 else ps5.post (recomputeEvent l st.work.id bad)

/-- Reads of an LMV made until it ends, or until it stalls: a lot whose INPUT_SAVE still holds the codes of another LMV keeps the
snapshot, the input and what the reads so far gave (R102). The counters of R108 show the reads made. -/
def ParcelState.lmvReads (ps : ParcelState) (l : Nat) (v : StalledLmv) (w : Nat → Nat → Int) : ParcelState :=
  let q := runReads ps l v.ds v.sn (ps.lot l).saveHeld.isNone (3 * v.rest.length) v.rest v.r
  if q.2.isEmpty && ((ps.lot l).saveHeld.isNone || (failingGroups q.1).isEmpty) then ps.lmvFinish l v.st v.sn q.1 v.r w
  else ps.modLot l (fun x => { x.countRun q.1 v.r with stalled := some { v with r := q.1, rest := q.2 } })

/-- An LMV that forms phases (R51 to R63, R80). -/
def ParcelState.lmvRun (ps : ParcelState) (l : Nat) (st : Staged) (ds : List (Nat × Nat × Int)) (w : Nat → Nat → Int) :
    ParcelState :=
  ps.lmvReads l { st := st, ds := ds, sn := snapshot ps l, r := {}, rest := inputReads st.work.n st.codes } w

/-- A stalled LMV goes on once INPUT_SAVE is free (R102). -/
def ParcelState.lmvResume (ps : ParcelState) (l : Nat) (w : Nat → Nat → Int) : ParcelState :=
  match (ps.lot l).stalled with
  | none => ps
  | some v => ps.lmvReads l v w

/-- Whether a lot is idle (R68): no LMV of it is stalled, and no correction job of it is pending. DEDUCED (log 113): CJ_PEND
counts at most one job for each of the 18 lots (R134). -/
def LotState.lotIdle (x : LotState) : Bool := x.stalled.isNone && x.outq.all OutEntry.jobDone

/-- LMV_START on lot `l`: idle, staging complete, an output entry free (R68). -/
def ParcelState.lmvStart (ps : ParcelState) (l : Nat) (ds : List (Nat × Nat × Int)) (w : Nat → Nat → Int) :
    ParcelState :=
  match (ps.lot l).staging with
  | [] => ps
  | st :: _ =>
    if (ps.lot l).outq.length ≥ 4 || !(ps.lot l).lotIdle then ps
    else if st.e = 255 then ps.lmvNoPhase l st qnan true
    else if (formPhases st.work.n st.codes).isEmpty then ps.lmvNoPhase l st 0 false
    else ps.lmvRun l st ds w

/-! ### Correction job and output stage (R63, R88, R93, R126) -/

/-- The outputs of an entry whose outlier sums and groups are there. -/
def OutEntry.outputs (x : LotState) (o : OutEntry) : List F32 × Ev :=
  Machine.outputs x o.e.toNat (fun c => o.a.getD c 0 + 256 * o.o.getD c 0) (List.range 1024)

/-- The output stage of the entry of LMV `id`: once its correction job has run and its failing groups are recomputed, its outputs
are formed and what forming them counts is counted (R63, R88, R101). -/
def ParcelState.outputStage (ps : ParcelState) (l id : Nat) : ParcelState :=
  match (ps.lot l).outq.find? (fun o => o.work.id == id) with
  | none => ps
  | some o =>
    if !(o.jobDone && o.recomputed) || !o.y.isEmpty then ps
    else
      let r := o.outputs (ps.lot l)
      (ps.modLot l (fun x => { x with
        outq := x.outq.map (fun v => if v.work.id == id then { v with y := r.1, codes := [], a := [], o := [] } else v) })).count
        o.work.tag.toNat r.2

/-- A correction job: the outlier sums of LMV `id` for all 1,024 data columns, which the correction entry holds and the output
stage takes (R88, R126; DESIGN CHOICE, log 114: the entry holds one sum for each data column). -/
def ParcelState.runJob (ps : ParcelState) (j : Nat × LotId) : ParcelState :=
  let l := j.2.val
  match (ps.lot l).outq.find? (fun o => o.work.id == j.1) with
  | none => ps
  | some o =>
    let os := outlierEntries ps l o.count
    let sums := (List.range 1024).map (outlierSum os o.work.n o.codes)
    let ps1 := ps.modLot l (fun x => { x with
      outq := x.outq.map (fun v => if v.work.id == j.1 then { v with o := sums, jobDone := true } else v) })
    ({ ps1 with dme := { ps1.dme with corr := sums, cjDone := satAdd 16 ps1.dme.cjDone 1 } }).outputStage l j.1

/-- The pending correction jobs run in the order in which their LMVs started (R125, R126). -/
def ParcelState.runJobs (ps : ParcelState) : ParcelState :=
  let ps1 := ps.dme.jobs.foldl ParcelState.runJob ps
  { ps1 with dme := { ps1.dme with jobs := [] } }

/-! ### Drain (R209 to R211) -/

/-- Whether an output entry is complete: its correction job has run (R88), every failing group is recomputed (R101), and its
outputs are formed. -/
def OutEntry.complete (o : OutEntry) : Bool := o.jobDone && o.recomputed && !o.y.isEmpty

/-- The work of an LMV that has not drained, in the order of issue: the smallest number over queues, staging and output
queues. -/
def ParcelState.oldestLmv (ps : ParcelState) : Option Nat :=
  ((List.range 18).flatMap (fun l =>
    (ps.lot l).queue.map LmvWork.id ++ (ps.lot l).staging.map (fun t => t.work.id) ++
    (ps.lot l).outq.map (fun o => o.work.id))).min?

/-- What an LMV writes at its destination and counts (R209, R210). -/
def lmvBytes (ps : ParcelState) (w : LmvWork) (y : List F32) : List Byte × Ev :=
  if w.accum then
    let rs := List.zipWith (fun d v => ((Val.ofF32 d).add (Val.ofF32 v), d, v)) (words32 (ps.read w.dst 4096)) y
    (rs.flatMap (fun r => leBytes r.1.toF32.toNat 4),
      rs.foldl (fun ev r =>
        let ev1 := r.1.toF32Ev.2
        ev.plus (if r.1.isNan && !f32IsNan r.2.1 && !f32IsNan r.2.2 then { ev1 with nanOut := 1 } else ev1)) {})
  else if w.ofmt = 0 then (bytes32 y, {})
  else cvtSeq (if w.ofmt = 1 then 4 else 11) none (y.map (fun v => { v := Val.ofF32 v, ev := {}, fromScale := false }))

/-- LMV_DRAIN: the parcel's oldest LMV drains once its output entry is complete and heads its lot's output queue; its
token completes (R205, R211). -/
def ParcelState.lmvDrain (ps : ParcelState) : ParcelState :=
  match ps.oldestLmv with
  | none => ps
  | some i =>
    match (List.range 18).find? (fun l => ((ps.lot l).outq.head?.map (fun o => o.work.id)) == some i) with
    | none => ps
    | some l =>
      match (ps.lot l).outq with
      | [] => ps
      | o :: rest =>
        if !o.complete then ps
        else
          let r := lmvBytes ps o.work o.y
          (((ps.write o.work.dst r.1).count o.work.tag.toNat r.2).modLot l (fun x => { x with outq := rest })).complete
            o.work.id o.work.tk

/-- LMV_DRAIN. -/
def execLmvDrain (p : Pid) (s : State) : Out := .next (s.modParcel p ParcelState.lmvDrain)

/-! ### Flag limit, drift fit, recompute (R91, R101, R103) -/

/-- FLAG_LIMIT_REPORT: the warden reports a lot whose persistent failures since its traverse reach FLAG_LIMIT; a limit of
0 never does (R103, R107). -/
def execFlagLimitReport (p : Pid) (l : LotId) (s : State) : Out :=
  .next (s.modParcel p (fun ps =>
    let x := ps.lot l.val
    if x.cp.flagLimit = 0 || x.persistSince < x.cp.flagLimit || x.reported then ps
    else { ps.modLot l.val (fun x => { x with reported := true }) with reports := ps.reports ++ [.lotFlag l] }))

/-- A rational `n / d` (with `d` above 0) clamped to `lo / k .. hi / k` over denominator `k`: the clamped numerator and
denominator, and whether the clamp acted. -/
def clampRat (n : Int) (d : Nat) (lo hi : Int) (k : Nat) : Int × Nat × Bool :=
  if n * (k : Int) < lo * (d : Int) then (lo, k, true)
  else if n * (k : Int) > hi * (d : Int) then (hi, k, true)
  else (n, d, false)

/-- The fit of R91: the new DRIFT_RHO and DRIFT_ETA, and whether a limit acted. `mode` is DRIFT_MODE, `rho` the present
DRIFT_RHO. All is exact until the two stores. DESIGN CHOICE (log 115): R91 does not say what 16384/DRIFT_RHO is at DRIFT_RHO = 0,
which no fit and no traverse stores; the divisor is then taken as 1. -/
def driftFit (mode rho : Nat) (f : FitRec) : Nat × Int × Bool :=
  let n : Int := 4096
  let den := n * f.sumE2 - f.sumE * f.sumE
  let d : Int × Nat :=
    if mode = 1 && den ≥ 64 * n * n then (n * f.sumEm - f.sumE * f.sumM, (256 * den).toNat)
    else (16384, max rho 1)
  let h : Int × Nat := (f.sumM * (d.2 : Int) - 256 * d.1 * f.sumE, 256 * d.2 * 4096)
  let x := decide ((d.1 - (d.2 : Int)).natAbs * 16 > d.2) || decide (h.1.natAbs > 2 * h.2)
  let d' := clampRat d.1 d.2 15 17 16
  let h' := clampRat h.1 h.2 (-2) 2 1
  ((rneDiv (16384 * (d'.2.1 : Int)) d'.1.toNat).toNat, rneDiv (256 * h'.1) h'.2.1, x)

/-- DRIFT_FIT: a group whose record has reached 4,096 samples is fitted (R91). -/
def execDriftFit (p : Pid) (l : LotId) (j : Fin 8) (s : State) : Out :=
  .next (s.modParcel p (fun ps =>
    match takeFirst (fun (f : FitRec) => f.group == j.val) (ps.lot l.val).fits with
    | none => ps
    | some (f, rest) =>
      let x := ps.lot l.val
      let r := driftFit x.cp.driftMode (ps.cbNat l.val (0x8 + 2 * j.val) 2) f
      let ps := (ps.write (cbBase l.val + 0x8 + 2 * j.val) (leBytes r.1 2)).write
        (cbBase l.val + 0x18 + 2 * j.val) (intBytes r.2.1 2)
      ps.setLot l.val { x with
        fits := rest
        driftUpd := satAdd 16 x.driftUpd 1
        flag := x.flag || r.2.2
        driftX := if r.2.2 then x.driftX ||| BitVec.ofNat 8 (2 ^ j.val) else x.driftX }))

/-- The output entry with every failing group's columns taken from exact sums `ex` (R101). -/
def OutEntry.recompute (o : OutEntry) (ex : Nat → Int) : OutEntry :=
  { o with
    a := o.a.zipIdx.map (fun v => if o.failing.contains (v.2 / 128) then ex v.2 else v.1)
    recomputed := true }

end Sys2Proof.Machine
end

