-- ==== Sys2Proof/Machine/Dme.lean ====
section
/-!
DEFINITION. The digital matrix engine: DMM arithmetic, tile fetch, operand queue and compute (04 R109 to R126, R132,
R135, R636; 05 R152, R166 to R168; 07 R212, R213).
-/
namespace Sys2Proof.Machine

/-! ### Current class and width (R112, R132) -/

/-- The declared width of a streamed INT operand. -/
def dmmN (o : DmmOps) : Nat := o.nm1.toNat + 1

/-- Cycles per vector of the streamed format; `none` for a format R112 does not list. -/
def dmmWidth (o : DmmOps) : Option Nat :=
  match o.xf.toNat with
  | 0 => some (dmmN o) | 1 => some (dmmN o) | 5 => some 4 | 8 => some 5 | 9 => some 7 | 10 => some 10 | 11 => some 8
  | 4 => some 8 | 3 => some 24 | _ => none

/-- Whether either operand is in format `f`. -/
def dmmNames (o : DmmOps) (f : Nat) : Bool := o.tf.toNat == f || o.xf.toNat == f

/-- The current class of a DMM, from its fields at issue (R132). -/
def dmmClass (o : DmmOps) : Nat :=
  if dmmNames o 3 then 11
  else if dmmNames o 4 then 10
  else match dmmWidth o with
    | some b => if b ≤ 4 then 8 else if b ≤ 8 then 9 else 10
    | none => 10

/-- Vectors of a DMM. -/
def dmmK (o : DmmOps) : Nat := o.km1.toNat + 1

/-- Wide reference mode (R121, R213). -/
def dmmWide (o : DmmOps) : Bool := o.tf == 3 && o.xf == 3

/-- Bytes of a tile of 4,096 elements (R111). -/
def tileBytes (o : DmmOps) : Nat := fmtBytes o.tf.toNat 4096

/-- Tile fetch cycles L (R111). -/
def tileCycles (f : Nat) : Nat :=
  match f with
  | 7 => 2 | 6 => 4 | 5 => 4 | 8 => 4 | 9 => 8 | 10 => 8 | 11 => 8 | 0 => 8 | 1 => 16 | 4 => 16 | 3 => 32 | _ => 0

/-- Integer kind (R113, R114): neither operand BF16 or binary32, and both unscaled integers or the DMM RAW. -/
def dmmInt (o : DmmOps) : Bool :=
  !dmmNames o 3 && !dmmNames o 4 && (o.raw || (o.tf.toNat ≤ 1 && o.xf.toNat ≤ 1))

/-- The operand exception of a DMM that its fields and operands show (R115, R116, R136, R148, R174, R234). DESIGN CHOICE (log 116):
R137 has unpacked elements naturally aligned and R234 lists no exception for an operand that is not; such an operand of a DMM, ATS,
ATV or ATX is read or written at its byte offset. -/
def dmmBad (fw : Bool) (o : DmmOps) (rt rx rd : Nat) : Bool :=
  let tf := o.tf.toNat
  let xf := o.xf.toNat
  !([0, 1, 3, 4, 5, 8, 9, 10, 11].contains tf || ((tf == 6 || tf == 7) && o.raw)) || (dmmWidth o).isNone ||
  (o.nm1 ≠ 0 && xf > 1) || (xf == 0 && dmmN o > 8) || ((tf == 3) != (xf == 3)) || (dmmWide o && o.km1.toNat > 7) ||
  (fmtPacked tf && rt % 4 ≠ 0) || (fmtPacked xf && rx % 4 ≠ 0) ||
  !unitOpen fw rt (tileBytes o) || !unitOpen fw rx (fmtBytes xf (64 * dmmK o)) ||
  (o.write && !unitOpen fw rd (256 * dmmK o))

/-! ### Elements (R111 to R113, R139, R143, R152) -/

/-- An operand element: its integer in DME units and its block scale code (127 where there is none), or its value for
BF16 and binary32; and what reading it counts. -/
structure DElem where
  a : Int
  sc : Nat
  v : Val
  ev : Ev
deriving DecidableEq, Repr, Inhabited

/-- A BF16 operand with an 8-bit significand (R119, R120): subnormals are zeros of their sign. -/
def bf16Operand (b : Nat) : DElem :=
  let s := decide (b % 65536 ≥ 32768)
  let ex : Nat := b / 2 ^ 7 % 256
  let f := b % 2 ^ 7
  if ex = 255 then { a := 0, sc := 127, v := if f = 0 then .inf s else .nan, ev := {} }
  else if ex = 0 then { a := 0, sc := 127, v := .fin s 0 0, ev := { zero := if f = 0 then 0 else 1 } }
  else { a := 0, sc := 127, v := .fin s (128 + f) ((ex : Int) - 134), ev := {} }

/-- Element `j` of a burst of a packed format, as the DME reads it. -/
def burstOperand (f scale payload j : Nat) : DElem :=
  if f = 4 then bf16Operand (payload / 2 ^ (16 * j) % 65536)
  else
    let b := j / fmtBlock f
    let r := elemValue f (burstCode f payload b (j % fmtBlock f))
    { a := r.1, sc := scale / 2 ^ (8 * b) % 256, v := .nan, ev := { invalid := if r.2 then 1 else 0 } }

/-- The operand elements in `bs`, a run of bursts or of unpacked elements. -/
def operandElems (f : Nat) (bs : List Byte) : List DElem :=
  if fmtPacked f then
    (chunks 68 (bs.length / 68) bs).flatMap (fun b =>
      (List.range (fmtPerBurst f)).map (burstOperand f (leNat (b.take 4)) (leNat (b.drop 4))))
  else
    (chunks (fmtBits f / 8) bs.length bs).map (fun c =>
      { a := if f = 3 then 0 else leInt c, sc := 127,
        v := if f = 3 then Val.ofF32 (BitVec.ofNat 32 (leNat c)) else .nan, ev := {} })

/-- A streamed INT element read at its declared width (R112). -/
def narrow (o : DmmOps) (e : DElem) : DElem :=
  if o.xf.toNat ≤ 1 then { e with a := (BitVec.ofInt (dmmN o) e.a).toInt } else e

/-- Events of some elements. -/
def elemsEv (es : List DElem) : Ev := es.foldl (fun a e => a.plus e.ev) {}

/-! ### Columns -/

/-- The exact sum of products of two half-columns. -/
def halfSum (t x : List DElem) : Int := (List.zipWith (fun (p q : DElem) => p.a * q.a) t x).sum

/-- The exponent of a block-scaled operand's units: least step and block scale; 0 for the unscaled formats (R113, R141,
R143). -/
def unitExp (f : Nat) (es : List DElem) : Int :=
  if fmtBlockScaled f then fmtStep f + ((es.headD default).sc : Int) - 127 else 0

/-- Whether the half-column meets a NaN block scale (R152). -/
def nanHalf (f : Nat) (es : List DElem) : Bool := fmtBlockScaled f && (es.headD default).sc == 255

/-- A column of scaled integers (R114, float kind): both halves exactly, rounded once. -/
def scaledColumn (tf xf : Nat) (t x : List DElem) : F32 × Ev :=
  let tu := t.take 32
  let tl := t.drop 32
  let xu := x.take 32
  let xl := x.drop 32
  let n := (if nanHalf tf tu || nanHalf xf xu then 1 else 0) + (if nanHalf tf tl || nanHalf xf xl then 1 else 0)
  if n > 0 then (qnan, { nanOut := n })
  else
    let up := halfSum tu xu
    let lo := halfSum tl xl
    ((Val.fin (decide (up < 0)) up.natAbs (unitExp tf tu + unitExp xf xu)).add
      (Val.fin (decide (lo < 0)) lo.natAbs (unitExp tf tl + unitExp xf xl))) |> fun v =>
      match v with
      | .fin _ 0 _ => (0, {})
      | v => v.toF32Ev

/-- The exact value of an element in a BF16 column (R119). -/
def colValue (o : DmmOps) (f : Nat) (e : DElem) : Val :=
  if f = 3 || f = 4 then e.v
  else .fin (decide (e.a < 0)) e.a.natAbs
    (if fmtBlockScaled f && !o.raw then fmtStep f + (e.sc : Int) - 127 else 0)

/-- What the special values of some products give (R120, R167): a NaN, an infinity, or neither; and whether the NaN is
made from operands that hold none. -/
def specialSum (pairs : List (Val × Val)) : Option (F32 × Ev) :=
  let prods := pairs.map (fun p => p.1.mul p.2)
  if pairs.any (fun p => p.1.isNan || p.2.isNan) then some (qnan, {})
  else if prods.any Val.isNan || (prods.contains (.inf true) && prods.contains (.inf false)) then
    some (qnan, { nanOut := 1 })
  else if prods.contains (.inf true) then some (f32Inf true, {})
  else if prods.contains (.inf false) then some (f32Inf false, {})
  else none

/-- Magnitude, exponent and sign of nonzero finite products. -/
def nonzeroTerms (pairs : List (Val × Val)) : List (Bool × Nat × Int) :=
  pairs.filterMap (fun p => match p.1.mul p.2 with
    | .fin s m e => if m = 0 then none else some (s, m, e)
    | _ => none)

/-- The largest of some integers. -/
def maxOf : List Int → Int
  | [] => 0
  | x :: xs => xs.foldl max x

/-- `floor (m * 2 ^ e)`, signed. -/
def truncTerm (s : Bool) (m : Nat) (e : Int) : Int := signed s (dyFloor m e)

/-- A signed integer times two to the `e` rounded to binary32, with what that counts; 0 is +0. -/
def intToF32 (k e : Int) : F32 × Ev :=
  if k = 0 then (0, {}) else (Val.fin (decide (k < 0)) k.natAbs e).toF32Ev

/-- A BF16 column (R119, R120). -/
def bf16Column (pairs : List (Val × Val)) : F32 × Ev :=
  match specialSum pairs with
  | some r => r
  | none =>
    let ts := nonzeroTerms pairs
    let f := maxOf (ts.map (fun t => t.2.2))
    intToF32 ((ts.map (fun t => truncTerm t.1 t.2.1 (t.2.2 - f + 24))).sum) (f - 24)

/-- A wide reference column (R166, R167). -/
def wideColumn (pairs : List (Val × Val)) : F32 × Ev :=
  match specialSum pairs with
  | some r => r
  | none =>
    let ts := nonzeroTerms pairs
    let f := maxOf (ts.map (fun t => leadExp t.2.1 t.2.2))
    intToF32 ((ts.map (fun t => truncTerm t.1 t.2.1 (t.2.2 + 62 - f))).sum) (f - 62)

/-- Two NaN-half counts of a mixed BF16 column: a NaN block scale of the other operand (R152). -/
def mixedNan (o : DmmOps) (t x : List DElem) : Nat :=
  if o.raw then 0
  else
    let bad (h : List DElem → List DElem) := nanHalf o.tf.toNat (h t) || nanHalf o.xf.toNat (h x)
    (if bad (List.take 32) then 1 else 0) + (if bad (List.drop 32) then 1 else 0)

/-- One column of a float-kind DMM (R114, R119, R166). -/
def floatColumn (o : DmmOps) (t x : List DElem) : F32 × Ev :=
  if dmmWide o then wideColumn (List.zipWith (fun p q => (p.v, q.v)) t x)
  else if dmmNames o 4 then
    let n := mixedNan o t x
    if n > 0 then (qnan, { nanOut := n })
    else bf16Column (List.zipWith (fun p q => (colValue o o.tf.toNat p, colValue o o.xf.toNat q)) t x)
  else scaledColumn o.tf.toNat o.xf.toNat t x

/-! ### Accumulator file (R109, R114 to R116) -/

/-- An entry's half-accumulators: 64 zeros where nothing is held. -/
def AccEntry.upper (a : AccEntry) : List Int := if a.kind = .int then a.up else List.replicate 64 0
/-- The lower halves. -/
def AccEntry.lower (a : AccEntry) : List Int := if a.kind = .int then a.lo else List.replicate 64 0
/-- The binary32 values. -/
def AccEntry.floats (a : AccEntry) : List F32 := if a.kind = .float then a.f else List.replicate 64 0

/-- A half-accumulator sum, saturating at plus or minus (2^47 − 1) (R116). -/
def satHalf (x : Int) : Int × Nat :=
  let m : Int := (2 ^ 47 : Nat) - 1
  if x > m then (m, 1) else if x < -m then (-m, 1) else (x, 0)

/-- Sums of two lists with saturation, and how many saturate. -/
def addHalves (a b : List Int) : List Int × Nat :=
  let r := List.zipWith (fun x y => satHalf (x + y)) a b
  (r.map Prod.fst, (r.map Prod.snd).sum)

/-- One binary32 accumulation and what it counts. -/
def accAdd (a b : F32) : F32 × Ev :=
  let v := (Val.ofF32 a).add (Val.ofF32 b)
  let r := v.toF32Ev
  if v.isNan && !f32IsNan a && !f32IsNan b then (qnan, { nanOut := 1 }) else r

/-- Values added into a float entry. -/
def accAddAll (a b : List F32) : List F32 × Ev :=
  let r := List.zipWith accAdd a b
  (r.map Prod.fst, r.foldl (fun (ev : Ev) x => ev.plus x.2) {})

/-- The columns of a tile: column j is elements 64 j to 64 j + 63 (R213). -/
def tileColumns (es : List DElem) : List (List DElem) := chunks 64 64 es

/-- One vector multiplied into accumulator entry `a` (R114). -/
def dmmVector (o : DmmOps) (cols : List (List DElem)) (x : List DElem) (a : AccEntry) : AccEntry × Ev :=
  if dmmInt o then
    let up := addHalves a.upper (cols.map (fun t => halfSum (t.take 32) (x.take 32)))
    let lo := addHalves a.lower (cols.map (fun t => halfSum (t.drop 32) (x.drop 32)))
    ({ kind := .int, up := up.1, lo := lo.1, f := [] }, { sat := up.2 + lo.2 })
  else
    let rs := cols.map (fun t => floatColumn o t x)
    let s := accAddAll a.floats (rs.map Prod.fst)
    ({ kind := .float, up := [], lo := [], f := s.1 }, (rs.foldl (fun (ev : Ev) r => ev.plus r.2) {}).plus s.2)

/-- The 256 bytes that WRITE puts out for an entry (R116): INT32 with saturation or binary32 for the integer kind,
binary32 for the float kind. -/
def accBytes (wf : Bool) (a : AccEntry) : List Byte × Ev :=
  match a.kind with
  | .float => (bytes32 a.f, {})
  | _ =>
    let vs := List.zipWith (· + ·) a.upper a.lower
    if wf then (bytes32 (vs.map (fun k => (intToF32 k 0).1)), {})
    else (vs.flatMap (fun k => intBytes (clampInt 32 k) 4),
      { sat := (vs.filter (fun k => clampInt 32 k ≠ k)).length })

/-! ### Issue, tile fetch, operand fill -/

/-- Whether the DME holds an instruction. -/
def DmeState.occupied (d : DmeState) : Bool := d.running.isSome || d.shadow.isSome || !d.queue.isEmpty

/-- The instructions that the DME holds, in issue order. -/
def DmeState.held (d : DmeState) : List DmeWork :=
  (d.running.toList.map Fetched.work) ++ (d.shadow.toList.map Fetched.work) ++ d.queue

/-- A DMM or a DMG (R636 speaks of the compute of the previous one). -/
def DmeOp.multiplies : DmeOp → Bool
  | .dmm .. => true
  | .dmg .. => true
  | _ => false

/-- Whether an instruction issued now follows a DMM or DMG whose compute has not ended (R636). -/
def DmeState.behindNow (d : DmeState) : Bool := (d.held.getLast?.map (fun w => w.op.multiplies)).getD false

/-- Issue of a DME instruction into the queue of 8 (R195). -/
def dmeIssue (c : Nat) (tag tk : BitVec 4) (illegal : Bool) (op : ParcelState → DmeOp) (p : Pid) (s : State) : Out :=
  s.issueAt p c illegal (fun ps =>
    ps.issueUnit c tk (ps.dme.queue.length < 8) (fun q id =>
      { q with dme := { q.dme with queue := q.dme.queue ++
        [{ id := id, tag := tag, tk := tk, op := op ps, fw := ps.swp.fw, epc := ps.pc, behind := q.dme.behindNow }] } })) tag.toNat

/-- The value of a register as an offset. -/
def ParcelState.off (ps : ParcelState) (r : BitVec 5) : Nat := (ps.gReg r.toNat).toNat

/-- DMM. -/
def execDmm (p : Pid) (o : DmmOps) (s : State) : Out :=
  dmeIssue (dmmClass o) o.tag o.tk (o.rsv ≠ 0) (fun ps => .dmm o (ps.off o.rt) (ps.off o.rx) (ps.off o.rd)) p s

/-- DMG. -/
def execDmg (p : Pid) (o : DmgOps) (s : State) : Out :=
  dmeIssue 12 o.tag o.tk (o.rsv ≠ 0) (fun ps => .dmg o (ps.off o.rb)) p s

/-- ATS. -/
def execAts (p : Pid) (o : AtsOps) (s : State) : Out :=
  dmeIssue 9 o.tag o.tk (o.rsv ≠ 0) (fun ps => .ats o (ps.off o.rq) (ps.off o.rp) (ps.off o.rd)) p s

/-- ATV: class 8 with N4 probabilities, else 9 (R206). -/
def execAtv (p : Pid) (o : AtvOps) (s : State) : Out :=
  dmeIssue (if o.pf = 5 then 8 else 9) o.tag o.tk (o.rsvHi ≠ 0 || o.rsv ≠ 0)
    (fun ps => .atv o (ps.off o.rw) (ps.off o.rp) (ps.off o.rd)) p s

/-- ATX. -/
def execAtx (p : Pid) (o : AtxOps) (s : State) : Out :=
  dmeIssue 9 o.tag o.tk (o.rsvHi ≠ 0 || o.rsv ≠ 0)
    (fun ps => .atx o (ps.off o.rq) (ps.off o.rs) (ps.off o.rd) (ps.gReg o.rn.toNat)) p s

/-- Whether a queued DMM can fetch: its fields and operands raise nothing. -/
def DmeWork.fetchable (w : DmeWork) : Bool :=
  match w.op with
  | .dmm o rt rx rd => !dmmBad w.fw o rt rx rd
  | _ => false

/-- Bytes of a tile operand and its place. -/
def DmeWork.tile (w : DmeWork) (ps : ParcelState) : List Byte :=
  match w.op with
  | .dmm o rt _ _ => ps.read rt (tileBytes o)
  | _ => []

/-- Whether the operand queue holds the first vector of instruction `id`. -/
def DmeState.hasFirst (d : DmeState) (id : Nat) : Bool := d.opq.any (fun v => v.id == id && v.v == 0)

/-- TILE_FETCH: the next DMM's tile is fetched into the shadow buffer once that is free; its queue entry is then free
(R117, R195). A DMM issued behind a DMM or DMG whose compute has ended since, with its first vector there and no correction job
pending, waits for its own fetch: TILE_STALL (R636; DESIGN CHOICE, log 12: durations are not modelled, the order of events stands
for them). -/
def ParcelState.tileFetch (ps : ParcelState) : ParcelState :=
  match ps.dme.shadow, ps.dme.queue with
  | none, w :: rest =>
    if !w.fetchable || ps.dme.grid then ps
    else
      let late := w.behind && ps.dme.running.isNone && ps.dme.jobs.isEmpty && ps.dme.hasFirst w.id
      { ps with dme := { ps.dme with
        queue := rest
        shadow := some { work := w, tile := w.tile ps }
        tileStall := if late then satAdd 16 ps.dme.tileStall 1 else ps.dme.tileStall } }
  | _, _ => ps

/-- TILE_FETCH. -/
def execTileFetch (p : Pid) (s : State) : Out := .next (s.modParcel p ParcelState.tileFetch)

/-- Operand queue entries in use (R124). -/
def DmeState.opqFill (d : DmeState) : Nat := (d.opq.map OpVec.slots).sum

/-- The instructions whose vectors the operand queue takes, in issue order (R213). DESIGN CHOICE (log 117): R124 does not say whether
the vectors of a DMM queued behind a DMG, ATS, ATV or ATX are filled before that has gone; they are not. -/
def DmeState.fillOrder (d : DmeState) : List DmeWork :=
  (d.running.toList.map Fetched.work) ++ (d.shadow.toList.map Fetched.work) ++ d.queue.takeWhile DmeWork.fetchable

/-- The vectors of instruction `w` the operand queue already holds or held. -/
def DmeState.nextVector (d : DmeState) (w : DmeWork) : Option Nat :=
  match w.op with
  | .dmm o _ _ _ =>
    let n := (d.opq.filter (fun v => v.id == w.id)).length
    if n < dmmK o then some n else none
  | _ => none

/-- Vector `v` of the sequence at `rx` in format `f`, as the bursts or elements that hold it (R145, R213). -/
def readVector (ps : ParcelState) (f rx v : Nat) : List Byte × Nat :=
  let c := fmtPerBurst f
  if fmtPacked f then
    let b0 := 64 * v / c
    (ps.read (rx + 68 * b0) (68 * ((64 * v + 63) / c - b0 + 1)), 64 * v - c * b0)
  else (ps.read (rx + 64 * v * (fmtBits f / 8)) (64 * (fmtBits f / 8)), 0)

/-- OPQ_FILL: the next vector in DMM issue order is read from SRAM while the queue of 16 has room (R124). -/
def ParcelState.opqFill (ps : ParcelState) : ParcelState :=
  match ps.dme.fillOrder.find? (fun w => (ps.dme.nextVector w).isSome) with
  | none => ps
  | some w =>
    match w.op, ps.dme.nextVector w with
    | .dmm o _ rx _, some v =>
      let slots := if dmmWide o then 2 else 1
      if ps.dme.opqFill + slots > 16 then ps
      else
        let r := readVector ps o.xf.toNat rx v
        { ps with dme := { ps.dme with
          opq := ps.dme.opq ++ [{ id := w.id, v := v, bytes := r.1, skip := r.2, slots := slots }] } }
    | _, _ => ps

/-- OPQ_FILL. -/
def execOpqFill (p : Pid) (s : State) : Out := .next (s.modParcel p ParcelState.opqFill)

/-! ### Exceptions, compute -/

/-- A DME exception of instruction `w`: it and those queued behind it are discarded, their tokens complete (R115, R199);
STATUS.EXC is set (R134). -/
def ParcelState.dmeFault (ps : ParcelState) (cause : Nat) (w : DmeWork) : ParcelState :=
  let all := ps.dme.held
  let gone := (all.dropWhile (fun v => v.id ≠ w.id))
  let stay := (all.takeWhile (fun v => v.id ≠ w.id)).map DmeWork.id
  let d := ps.dme
  (({ ps with dme := { d with
      running := d.running.filter (fun f => stay.contains f.work.id)
      shadow := d.shadow.filter (fun f => stay.contains f.work.id)
      queue := d.queue.filter (fun v => stay.contains v.id)
      opq := d.opq.filter (fun v => stay.contains v.id)
      exc := true } }).raise cause 2 w.tag.toNat 0 w.epc w.fw).completeAll (gone.map (fun (v : DmeWork) => (v.id, v.tk)))

/-- `n` PCLK cycles of array compute counted in ACTIVE, in units of 256 (R135). -/
def DmeState.addActive (d : DmeState) (n : Nat) : DmeState :=
  { d with active := satAdd 32 d.active ((d.activeCycles + n) / 256), activeCycles := (d.activeCycles + n) % 256 }

/-- Whether a chained DMM meets an entry of the other kind (R115). -/
def kindClash (d : DmeState) (o : DmmOps) : Bool :=
  o.chain && (List.range (dmmK o)).any (fun v =>
    (Sparse.get ({} : AccEntry) d.acc v).kind == (if dmmInt o then AccKind.float else AccKind.int))

/-- Vectors multiplied into entries from number `v` on. -/
def dmmVectors (o : DmmOps) (cols : List (List DElem)) : Nat → List (List DElem) → Sparse AccEntry × Ev →
    Sparse AccEntry × Ev
  | _, [], r => r
  | v, x :: xs, r =>
    let a := if o.chain then Sparse.get ({} : AccEntry) r.1 v else {}
    let q := dmmVector o cols x a
    dmmVectors o cols (v + 1) xs (Sparse.put r.1 v q.1, (r.2.plus (elemsEv x)).plus q.2)

/-- The elements of a vector of the operand queue. -/
def OpVec.elems (o : DmmOps) (v : OpVec) : List DElem :=
  (((operandElems o.xf.toNat v.bytes).drop v.skip).take 64).map (narrow o)

/-- DMM_COMPUTE: the running DMM streams its K vectors; a vector that is missing at its turn stalls compute without a
fault and counts once in OPQ_STALL (R114 to R117). -/
def ParcelState.dmmCompute (ps : ParcelState) : ParcelState :=
  match ps.dme.running with
  | none => ps
  | some f =>
    match f.work.op with
    | .dmm o _ _ rd =>
      let vs := ps.dme.opq.filter (fun v => v.id == f.work.id)
      if vs.length < dmmK o then
        if ps.dme.stallAt = some (f.work.id, vs.length) then ps
        else { ps with dme := { ps.dme with
          opqStall := satAdd 16 ps.dme.opqStall 1, stallAt := some (f.work.id, vs.length) } }
      else if kindClash ps.dme o then ps.dmeFault 7 f.work
      else
        let tile := (operandElems o.tf.toNat f.tile).take 4096
        let r := dmmVectors o (tileColumns tile) 0 (vs.map (OpVec.elems o)) (ps.dme.acc, elemsEv tile)
        let w := if o.write then
            (List.range (dmmK o)).map (fun v => accBytes o.wf (Sparse.get ({} : AccEntry) r.1 v)) else []
        let d := (ps.dme.addActive (dmmK o * (dmmWidth o).getD 0))
        let ps1 := { ps with dme := { d with
          acc := r.1
          running := none
          opq := d.opq.filter (fun v => v.id ≠ f.work.id)
          dmmDone := satAdd 32 d.dmmDone 1 } }
        ((ps1.write rd (w.flatMap Prod.fst)).count o.tag.toNat (w.foldl (fun (a : Ev) x => a.plus x.2) r.2)).complete
          f.work.id f.work.tk
    | _ => ps

/-- DMM_COMPUTE. -/
def execDmmCompute (p : Pid) (s : State) : Out := .next (s.modParcel p ParcelState.dmmCompute)

end Sys2Proof.Machine
end

