-- ==== Sys2Proof/Machine/Attn.lean ====
section
/-!
DEFINITION. Attention and grid instructions in the DME, and the dispatch at an instruction boundary
(04 R125 to R130; 07 R214 to R221, R234; 10 R305, R306, R309).
-/
namespace Sys2Proof.Machine

/-! ### Attention operands (R216, R306) -/

/-- Bytes of a hot page (R305). -/
def pageBytes : Nat := 52224

/-- Bytes of `g` query vectors: two MXINT8 bursts each. -/
def queryBytes (g : Nat) : Nat := 136 * g

/-- Chunk `c` (64 elements) of head `h` of the queries at `rq`. -/
def queryChunk (ps : ParcelState) (rq h c : Nat) : List DElem := operandElems 11 (ps.read (rq + 136 * h + 68 * c) 68)

/-- Column of key tile (c, q) for position `p`: key burst p of chunk c (R306). -/
def keyColumn (ps : ParcelState) (rp c p : Nat) : List DElem := operandElems 11 (ps.read (rp + 17408 * c + 68 * p) 68)

/-- A dot product of 128 elements as two chunk results and one binary32 addition, chunk 0 first (R217). -/
def dotChunks (t0 x0 t1 x1 : List DElem) : F32 × Ev :=
  let r0 := scaledColumn 11 11 t0 x0
  let r1 := scaledColumn 11 11 t1 x1
  let s := accAdd r0.1 r1.1
  (s.1, (r0.2.plus r1.2).plus s.2)

/-- The events of several results. -/
def foldEv {α : Type} (l : List (α × Ev)) : Ev := l.foldl (fun (a : Ev) x => a.plus x.2) {}

/-! ### ATS (R217) -/

/-- The operand exception of an ATS (R148, R174, R234). -/
def atsBad (fw : Bool) (g rq rp rd : Nat) : Bool :=
  rq % 4 ≠ 0 || rp % 4 ≠ 0 || !unitOpen fw rq (queryBytes g) || !unitOpen fw rp pageBytes || !unitOpen fw rd (1024 * g)

/-- The scores of head `h`: `nv` dot products, then −∞. -/
def atsHead (ps : ParcelState) (rq rp h nv : Nat) : List (F32 × Ev) :=
  let x0 := queryChunk ps rq h 0
  let x1 := queryChunk ps rq h 1
  (List.range 256).map (fun p =>
    if p < nv then dotChunks (keyColumn ps rp 0 p) x0 (keyColumn ps rp 1 p) x1 else (f32Inf true, {}))

/-- All scores, head by head. -/
def atsScores (ps : ParcelState) (rq rp g nv : Nat) : List (F32 × Ev) :=
  (List.range g).flatMap (fun h => atsHead ps rq rp h nv)

/-! ### ATV (R218, R309) -/

/-- The operand exception of an ATV (R148, R174, R234). -/
def atvBad (fw : Bool) (o : AtvOps) (g rw rp rd : Nat) : Bool :=
  !([5, 8, 11].contains o.pf.toNat) || rw % 4 ≠ 0 || rp % 4 ≠ 0 ||
  !unitOpen fw rw (fmtBytes o.pf.toNat (256 * g)) || !unitOpen fw rp pageBytes ||
  (o.write && !unitOpen fw rd (512 * g))

/-- Value code and scale code of position `p`, dimension `64 c + j`, with whether the code is invalid (R306). -/
def valueAt (ps : ParcelState) (rp c p j : Nat) : Int × Bool × Nat :=
  let b := ps.read (rp + 34816 + 8704 * c + 68 * (p / 2)) 68
  let blk := 2 * (p % 2) + j / 32
  let v := elemValue 5 (burstCode 5 (leNat (b.drop 4)) blk (j % 32))
  (v.1, v.2, leNat (b.take 4) / 2 ^ (8 * blk) % 256)

/-- A cell aligned to `base` and whether it counts ZERO (align_half of R309). -/
def alignCell (u : Int) (e base : Nat) : Int × Bool :=
  if e ≥ base then (u * (2 ^ (e - base) : Nat), false)
  else
    let r := roundInt (decide (u < 0)) u.natAbs ((e : Int) - base)
    (r, u ≠ 0 && r == 0)

/-- The stationary half of positions `p0` to `p0 + 31` for one dimension, rows at or above `nv` ignored (R309). -/
def alignHalf (us : List (Int × Bool × Nat)) (live : Nat) : List DElem :=
  let ls := us.take live
  let dead := List.replicate (32 - live) ({ a := 0, sc := 127, v := .nan, ev := {} } : DElem)
  if ls.any (fun u => u.2.2 == 255) then
    ls.map (fun u => { a := 0, sc := 255, v := .nan, ev := { invalid := if u.2.1 then 1 else 0 } }) ++ dead
  else if live = 0 then dead
  else
    let emax := ls.foldl (fun (m : Nat) u => max m u.2.2) 0
    let emin := ls.foldl (fun (m : Nat) u => min m u.2.2) 255
    let base := max emin (emax - 12)
    ls.map (fun u =>
      let c := alignCell u.1 u.2.2 base
      { a := c.1, sc := base, v := .nan, ev := { invalid := if u.2.1 then 1 else 0, zero := if c.2 then 1 else 0 } }) ++
      dead

/-- Rows of a run of 32 from `p0` below `nv`. -/
def liveRows (p0 nv : Nat) : Nat := min 32 (nv - p0)

/-- Column j of value tile (c, q): two aligned halves (R306, R309). -/
def valueColumn (ps : ParcelState) (rp c q nv j : Nat) : List DElem :=
  let half (p0 : Nat) := alignHalf ((List.range 32).map (fun i => valueAt ps rp c (p0 + i) j)) (liveRows p0 nv)
  half (64 * q) ++ half (64 * q + 32)

/-- A probability half-vector: positions at or above `nv` read as 0; a block without a live position brings no scale. -/
def liveProbs (p0 nv : Nat) (es : List DElem) : List DElem :=
  let n := liveRows p0 nv
  let ls := es.take n
  let sc := if n = 0 then 127 else (es.headD default).sc
  ls ++ List.replicate (32 - n) ({ a := 0, sc := sc, v := .nan, ev := {} } : DElem)

/-- Probabilities of head `h`, position block `q`. -/
def probVector (ps : ParcelState) (pf rw h q nv : Nat) : List DElem :=
  let k := 256 * h + 64 * q
  let c := fmtPerBurst pf
  let es := ((operandElems pf (ps.read (rw + 68 * (k / c)) (68 * (if c < 128 then 128 / c else 1)))).drop (k % c)).take 64
  liveProbs (64 * q) nv (es.take 32) ++ liveProbs (64 * q + 32) nv (es.drop 32)

/-- The values of an entry that ATV adds into or writes, an integer entry's as binary32 (R116). -/
def AccEntry.asFloats (a : AccEntry) : List F32 :=
  if a.kind = .int then (List.zipWith (· + ·) a.upper a.lower).map (fun k => (intToF32 k 0).1) else a.floats

/-- One tile (c, q) into the entries of every head. An entry of integer kind, which a DMM put between two ATVs of a chain, takes
nothing and raises no exception (R115, R218; DEDUCED, log 118). DESIGN CHOICE (log 119): an invalid probability code counts
INVALID once for each tile pass that streams it. -/
def atvTile (ps : ParcelState) (pf rw rp g nv c q : Nat) (r : Sparse AccEntry × Ev) : Sparse AccEntry × Ev :=
  let cols := (List.range 64).map (valueColumn ps rp c q nv)
  let ev0 := cols.foldl (fun (a : Ev) t => a.plus (elemsEv t)) r.2
  (List.range g).foldl (fun (a : Sparse AccEntry × Ev) h =>
    let x := probVector ps pf rw h q nv
    let rs := cols.map (fun t => scaledColumn 5 pf t x)
    let ev := (a.2.plus (elemsEv x)).plus (foldEv rs)
    let e := Sparse.get ({} : AccEntry) a.1 (h + 8 * c)
    if e.kind = .int then (a.1, ev)
    else
      let s := accAddAll e.floats (rs.map Prod.fst)
      (Sparse.put a.1 (h + 8 * c) { kind := .float, up := [], lo := [], f := s.1 }, ev.plus s.2)) (r.1, ev0)

/-- Entries after the optional clearing of CHAIN = 0 (R218). -/
def atvStart (chain : Bool) (acc : Sparse AccEntry) : Sparse AccEntry :=
  if chain then acc else (List.range 16).foldl (fun (a : Sparse AccEntry) v => Sparse.put a v {}) acc

/-- All tiles of an ATV: c = 0 then 1, each over its position blocks. -/
def atvAll (ps : ParcelState) (pf rw rp g nv : Nat) (acc : Sparse AccEntry) : Sparse AccEntry × Ev :=
  let qs := List.range ((nv + 63) / 64)
  ([0, 1].flatMap (fun c => qs.map (fun q => (c, q)))).foldl
    (fun (r : Sparse AccEntry × Ev) cq => atvTile ps pf rw rp g nv cq.1 cq.2 r) (acc, {})

/-- What ATV writes for head `h`: 128 values. -/
def atvRow (acc : Sparse AccEntry) (h : Nat) : List F32 :=
  (Sparse.get ({} : AccEntry) acc h).asFloats ++ (Sparse.get ({} : AccEntry) acc (h + 8)).asFloats

/-! ### ATX (R219) -/

/-- QN and NS of the count register. -/
def atxQn (rn : Word) : F32 := rn.extractLsb' 32 32
/-- The number of summaries. -/
def atxNs (rn : Word) : Nat := rn.toNat % 2 ^ 16

/-- The operand exception of an ATX (R148, R174, R219, R234). A QN of −0 is not negative. -/
def atxBad (fw : Bool) (g rq rs rd : Nat) (rn : Word) : Bool :=
  let qn := (atxQn rn).toNat
  rn.toNat / 2 ^ 16 % 2 ^ 16 ≠ 0 || atxNs rn = 0 || atxNs rn > 4096 || qn % 2 ^ 31 ≥ 0x7F800000 || qn > 2 ^ 31 ||
  rq % 4 ≠ 0 || rs % 4 ≠ 0 || !unitOpen fw rq (queryBytes g) || !unitOpen fw rs (144 * atxNs rn) || !unitOpen fw rd 256

/-- A binary32 product and what it counts (R163). -/
def f32MulEv (a b : F32) : F32 × Ev :=
  let v := (Val.ofF32 a).mul (Val.ofF32 b)
  if v.isNan && !f32IsNan a && !f32IsNan b then (qnan, { nanOut := 1 }) else v.toF32Ev

/-- sigma_p of summary `p` and what forming it counts. -/
def atxSigma (ps : ParcelState) (g rq rs : Nat) (rn : Word) (p : Nat) : F32 × Ev :=
  let s := ps.read (rs + 144 * p) 144
  let t0 := operandElems 11 (s.take 68)
  let t1 := operandElems 11 ((s.drop 68).take 68)
  let nu : F32 := BitVec.ofNat 32 (leNat ((s.drop 136).take 4))
  let ds := (List.range g).map (fun h => dotChunks t0 (queryChunk ps rq h 0) t1 (queryChunk ps rq h 1))
  let m := (ds.tail.map Prod.fst).foldl f32Max ((ds.map Prod.fst).headD 0)
  let b := f32MulEv nu (atxQn rn)
  let s := accAdd m b.1
  (s.1, ((foldEv ds).plus b.2).plus s.2)

/-- Whether sigma `a` ranks above `b`: a NaN ranks below every number. -/
def sigmaAbove (a b : F32) : Bool := !f32IsNan a && (f32IsNan b || f32Gt a b)

/-- A page put into a ranking of at most 56, behind those of equal rank. -/
def rankInsert (x : Nat × F32) : List (Nat × F32) → List (Nat × F32)
  | [] => [x]
  | y :: ys => if sigmaAbove x.2 y.2 then x :: y :: ys else y :: rankInsert x ys

/-- The selected pages, ascending (R219). -/
def atxSelect (ns : Nat) (sig : List (Nat × F32)) : List Nat :=
  if ns ≤ 64 then List.range ns
  else
    let top := ((sig.take (ns - 8)).foldl (fun (l : List (Nat × F32)) x => (rankInsert x l).take 56) []).map Prod.fst
    (List.range ns).filter (fun p => p ≥ ns - 8 || top.contains p)

/-- The 256 bytes ATX writes. -/
def atxBytes (sel : List Nat) : List Byte :=
  (sel.map Int.ofNat ++ List.replicate (64 - sel.length) (-1)).flatMap (fun k => intBytes k 4)

/-! ### DMG (R127 to R130, R214) -/

/-- The logical parcel of PARAM0 (R203). -/
def ParcelState.lparcel (ps : ParcelState) : Nat := (Sparse.get 0 ps.swp.param 0).toNat % 2 ^ 16

/-- Bytes of an element in the G2 formats (R129). -/
def g2Width (f : Nat) : Nat := if f = 0 then 1 else 2

/-- The elements that a G2 word reads from SRAM: their number and width. Every cell for GLD, 64 for each vector of GFL. -/
def g2Reads (g : BitVec 32) : Nat × Nat :=
  let f := g2Width (Config.g2Format g)
  match Config.g2Kind g with
  | 0 => (4096, f)
  | 1 => (64 * Config.g2Vectors g, f)
  | _ => (0, 0)

/-- The elements that a G2 word writes, four bytes each: GDR's results. -/
def g2Stores (g : BitVec 32) (d : GridState) : Nat := if Config.g2Kind g = 2 then 64 * d.sums.length else 0

/-- Whether a DMG's word is refused: GWT, GHI, a word that is no G2 instruction, an operand format other than INT8, INT16 and BF16
(DEDUCED, log 9), or an address outside the areas that the issuing bank may use (R129, R174, R234). -/
def dmgBad (fw : Bool) (o : DmgOps) (rb : Nat) (d : GridState) : Bool :=
  let r := g2Reads o.g2
  Config.g2Kind o.g2 > 4 || (Config.g2Kind o.g2 < 2 && !([0, 1, 4].contains (Config.g2Format o.g2))) ||
  (List.range r.1).any (fun k => !unitOpen fw (rb + Config.g2Place o.g2 k) r.2) ||
  (List.range (g2Stores o.g2 d)).any (fun k => !unitOpen fw (rb + Config.g2Place o.g2 k) 4)

/-- The codes that a G2 word reads. -/
def g2Codes (ps : ParcelState) (g : BitVec 32) (rb : Nat) : List Nat :=
  let r := g2Reads g
  (List.range r.1).map (fun k => leNat (ps.read (rb + Config.g2Place g k) r.2))

/-- The integer of a code of format INT8 or INT16. -/
def g2Int (f c : Nat) : Int := if f = 0 then (BitVec.ofNat 8 c).toInt else (BitVec.ofNat 16 c).toInt

/-- The exact value of a code of a G2 format (R130); a BF16 subnormal is a zero of its sign (R139). -/
def g2Val (f c : Nat) : Val := if f = 4 then (bf16Operand c).v else Val.ofInt (g2Int f c)

/-- One cell: its product with the streamed operand added to the partial sum (R130). Integers wrap at 32 bits and count nothing; a
product that takes a BF16 is exact and one binary32 addition rounds. -/
def g2Cell (ft fx t x : Nat) (s : BitVec 32) : BitVec 32 × Ev :=
  if ft ≠ 4 && fx ≠ 4 then (s + BitVec.ofInt 32 (g2Int ft t * g2Int fx x), {})
  else
    let p := (g2Val ft t).mul (g2Val fx x)
    let v := p.add (Val.ofF32 s)
    if v.isNan && !(g2Val ft t).isNan && !(g2Val fx x).isNan && !f32IsNan s then (qnan, { nanOut := 1 }) else v.toF32Ev

/-- The partial sum of a column from row 0 down to row 63 (R130). -/
def g2Column (ft fx : Nat) (t x : List Nat) (s : BitVec 32) : BitVec 32 × Ev :=
  (t.zip x).foldl (fun a tx =>
    let r := g2Cell ft fx tx.1 tx.2 a.1
    (r.1, a.2.plus r.2)) (s, {})

/-- GFL: each vector flows through the 64 columns, to the partial sums held where the word adds to them, else to zero. -/
def g2Flow (g : BitVec 32) (d : GridState) (codes : List Nat) : GridState × Ev :=
  let fx := Config.g2Format g
  let cols := if d.cells.isEmpty then List.replicate 64 (List.replicate 64 0) else chunks 64 64 d.cells
  let rs := ((chunks 64 codes.length codes).zipIdx).map (fun xv =>
    let s0 := if Config.g2Adds g then d.sums.getD xv.2 [] else []
    (cols.zipIdx).map (fun tc => g2Column d.fmt fx tc.1 xv.1 (s0.getD tc.2 0)))
  ({ d with hop := codes.drop (codes.length - 64), sums := rs.map (fun r => r.map Prod.fst) },
    rs.foldl (fun (a : Ev) r => a.plus (foldEv r)) {})

/-- GRT: the cells transposed, or rotated by rows and columns. -/
def g2Rotate (g : BitVec 32) (d : GridState) : GridState :=
  let from_ (k : Nat) : Nat :=
    match Config.g2Turn g with
    | none => 64 * (k % 64) + k / 64
    | some (r, c) => 64 * ((k / 64 + c) % 64) + (k % 64 + r) % 64
  { d with cells := (List.range d.cells.length).map (fun k => d.cells.getD (from_ k) 0) }

/-- What a G2 word does to the grid state, and what it counts (R129, R130). GSY has no effect of its own, since each word here ends
before the next begins. -/
def g2Step (g : BitVec 32) (d : GridState) (codes : List Nat) : GridState × Ev :=
  match Config.g2Kind g with
  | 0 => ({ d with fmt := Config.g2Format g, cells := codes }, {})
  | 1 => g2Flow g d codes
  | 2 => ({ d with sums := [] }, {})
  | 3 => (g2Rotate g d, {})
  | _ => (d, {})

/-- GDR: the partial sums go to the result buffer at the DMG's base. -/
def g2Drain (g : BitVec 32) (rb : Nat) (d : GridState) (ps : ParcelState) : ParcelState :=
  if Config.g2Kind g ≠ 2 then ps
  else (d.sums.flatten.zipIdx).foldl (fun (a : ParcelState) v => a.write (rb + Config.g2Place g v.2) (leBytes v.1.toNat 4)) ps

/-- The grid state that a DMG's word starts from: entry clears it (R127). -/
def dmgStart (d : DmeState) (o : DmgOps) : GridState := if o.enter then {} else d.gridState

/-- A DMG that runs: entry clears the grid state and takes a lease, the word acts, exit clears the grid state and ends the
lease (R127 to R131). The word's fields are free (log 9), what they make of the grid is R130. -/
def dmgRun (ps : ParcelState) (o : DmgOps) (rb : Nat) : ParcelState :=
  let before := dmgStart ps.dme o
  let r := g2Step o.g2 before (g2Codes ps o.g2 rb)
  let cycle := if Config.g2Kind o.g2 < 2 && Config.g2Format o.g2 = 1 then 16 else 8
  let d := ps.dme.addActive (Config.g2Cycles o.g2 * cycle)
  (g2Drain o.g2 rb before { ps with dme := { d with
    lease := if o.exit then 0 else if o.enter then ps.lparcel else d.lease
    grid := !o.exit
    gridState := if o.exit then {} else r.1
    dmgDone := satAdd 16 d.dmgDone 1 } }).count o.tag.toNat r.2

/-! ### Dispatch (R125, R220) -/

/-- The head of the queue runs whole and leaves the DME; its token completes. -/
def ParcelState.dmeEnd (ps : ParcelState) (w : DmeWork) : ParcelState :=
  ({ ps with dme := { ps.dme with queue := ps.dme.queue.drop 1 } }).complete w.id w.tk

/-- An ATS, ATV, ATX or DMG at the head of the queue, or a DMM that cannot be fetched (R127, R234). A DMM waits for its
tile fetch. DESIGN CHOICE (log 120): R127 names the DMM alone as what grid mode refuses; an ATS, ATV or ATX met in grid mode runs,
and leaves the grid state as it is. -/
def ParcelState.dmeHead (ps : ParcelState) (w : DmeWork) : ParcelState :=
  match w.op with
  | .dmm .. => if ps.dme.grid then ps.dmeFault 8 w else if w.fetchable then ps else ps.dmeFault 7 w
  | .dmg o rb =>
    if o.enter == ps.dme.grid then ps.dmeFault 8 w
    else if dmgBad w.fw o rb (dmgStart ps.dme o) then ps.dmeFault 7 w
    else (dmgRun ps o rb).dmeEnd w
  | .ats o rq rp rd =>
    let g := o.gm1.toNat + 1
    let nv := o.nvm1.toNat + 1
    if atsBad w.fw g rq rp rd then ps.dmeFault 7 w
    else
      let r := atsScores ps rq rp g nv
      let ps1 := { ps with dme := ps.dme.addActive (2 * ((nv + 63) / 64) * (8 * g)) }
      ((ps1.write rd (bytes32 (r.map Prod.fst))).count o.tag.toNat (foldEv r)).dmeEnd w
  | .atv o rw rp rd =>
    let g := o.gm1.toNat + 1
    let nv := o.nvm1.toNat + 1
    let start := atvStart o.chain ps.dme.acc
    if atvBad w.fw o g rw rp rd then ps.dmeFault 7 w
    else
      let r := atvAll ps o.pf.toNat rw rp g nv start
      let b := if o.pf = 5 then 4 else if o.pf = 8 then 5 else 8
      let d := ps.dme.addActive (2 * ((nv + 63) / 64) * (b * g))
      let ps1 := { ps with dme := { d with acc := r.1 } }
      let ps2 := if o.write then ps1.write rd ((List.range g).flatMap (fun h => bytes32 (atvRow r.1 h))) else ps1
      (ps2.count o.tag.toNat r.2).dmeEnd w
  | .atx o rq rs rd rn =>
    let g := o.gm1.toNat + 1
    let ns := atxNs rn
    if atxBad w.fw g rq rs rd rn then ps.dmeFault 7 w
    else
      let sig := (List.range ns).map (fun p => (p, atxSigma ps g rq rs rn p))
      let sel := atxSelect ns (sig.map (fun x => (x.1, x.2.1)))
      let ps1 := { ps with dme := ps.dme.addActive (2 * ((ns + 63) / 64) * (8 * g)) }
      ((ps1.write rd (atxBytes sel)).count o.tag.toNat (foldEv (sig.map Prod.snd))).dmeEnd w

/-- DME_DISPATCH: at an instruction boundary the pending correction jobs run, then the next instruction in issue order
starts (R125); the compute of a DMM starts once its first vector is in the operand queue (R117). -/
def ParcelState.dmeDispatch (ps : ParcelState) : ParcelState :=
  if ps.dme.running.isSome then ps
  else
    let ps1 := ps.runJobs
    match ps1.dme.shadow with
    | some f =>
      if ps1.dme.hasFirst f.work.id then { ps1 with dme := { ps1.dme with shadow := none, running := some f } } else ps1
    | none =>
      match ps1.dme.queue with
      | [] => ps1
      | w :: _ => ps1.dmeHead w

/-- DME_DISPATCH. -/
def execDmeDispatch (p : Pid) (s : State) : Out := .next (s.modParcel p ParcelState.dmeDispatch)

end Sys2Proof.Machine
end

