-- ==== Sys2Proof/Machine/Message.lean ====
section
/-!
DEFINITION. The operand bytes of the host commands, packed and unpacked (22 R617).
-/
namespace Sys2Proof.Machine

/-- Fields packed one after the other: bytes and value of each, little-endian (R15). -/
def packFields : List (Nat × Nat) → List Byte
  | [] => []
  | (w, v) :: r => leBytes v w ++ packFields r

/-- Bytes cut into fields of the given numbers of bytes. -/
def cutFields : List Nat → List Byte → List Nat
  | [], _ => []
  | w :: ws, b => leNat (b.take w) :: cutFields ws (b.drop w)

/-- A public key or a signature as bytes, in the order in which they are stored. -/
def keyBytes (k : BitVec 512) : List Byte := leBytes k.toNat 64

/-! ### MODEL_LOAD (R391, R617) -/

/-- Operand bytes of a tenant entry. -/
def tenantBytes (t : TenantOp) : List Byte :=
  packFields [(1, t.ease.toNat), (1, t.flags.toNat), (2, t.maxReq.toNat), (4, t.pages.toNat), (16, t.rings.toNat),
    (2, t.maxPins.toNat), (6, t.rsv.toNat)]

/-- The tenant entry of 32 bytes. -/
def tenantEntry (b : List Byte) : TenantOp :=
  match cutFields [1, 1, 2, 4, 16, 2, 6] b with
  | [e, f, r, p, g, n, v] =>
    { ease := BitVec.ofNat 8 e
      flags := BitVec.ofNat 8 f
      maxReq := BitVec.ofNat 16 r
      pages := BitVec.ofNat 32 p
      rings := BitVec.ofNat 128 g
      maxPins := BitVec.ofNat 16 n
      rsv := BitVec.ofNat 48 v }
  | _ => { ease := 0, flags := 0, maxReq := 0, pages := 0, rings := 0, maxPins := 0, rsv := 0 }

/-- Bytes 0 to 39 of MODEL_LOAD. -/
def loadHead (o : LoadOps) : List Byte :=
  packFields [(1, o.kind.toNat), (1, o.slot.toNat), (1, o.tenant.toNat), (1, 0), (2, o.ordinal.toNat), (2, o.next.toNat),
    (32, o.deedDigest.toNat)]

/-- Operand bytes of MODEL_LOAD: header, envelope, reserved bytes, tenant table. -/
def loadBytes (o : LoadOps) : List Byte :=
  loadHead o ++ (o.envelope ++ (List.replicate 7 0 ++ o.tenants.flatMap tenantBytes))

/-- The operands of MODEL_LOAD. -/
def loadOf (b : List Byte) : Option LoadOps :=
  match cutFields [1, 1, 1, 1, 2, 2, 32] b with
  | [k, s, t, _, o, n, d] => some {
      kind := BitVec.ofNat 8 k
      slot := BitVec.ofNat 8 s
      tenant := BitVec.ofNat 8 t
      ordinal := BitVec.ofNat 16 o
      next := BitVec.ofNat 16 n
      deedDigest := BitVec.ofNat 256 d
      envelope := (b.drop 40).take 161
      tenants := (chunks 32 16 (b.drop 208)).map tenantEntry }
  | _ => none

/-! ### FABRIC_SET_CONFIG and RING_BIND (R426, R443, R617) -/

/-- Operand bytes of FABRIC_SET_CONFIG. -/
def fabricBytes (o : FabricOps) : List Byte :=
  packFields [(2, o.engineId.toNat), (1, o.encap.toNat), (1, o.prio.toNat), (1, o.domain.toNat), (3, 0)] ++ (o.modes ++
    packFields [(12, o.ipPrefix.toNat), (4, o.qKey.toNat), (16, o.ip0.toNat), (16, o.ip1.toNat)])

/-- The operands of FABRIC_SET_CONFIG. -/
def fabricOf (b : List Byte) : Option FabricOps :=
  match cutFields [2, 1, 1, 1, 3] b, cutFields [12, 4, 16, 16] (b.drop 24) with
  | [e, c, p, d, _], [x, q, i, j] => some {
      engineId := BitVec.ofNat 16 e
      encap := BitVec.ofNat 8 c
      prio := BitVec.ofNat 8 p
      domain := BitVec.ofNat 8 d
      modes := (b.drop 8).take 16
      ipPrefix := BitVec.ofNat 96 x
      qKey := BitVec.ofNat 32 q
      ip0 := BitVec.ofNat 128 i
      ip1 := BitVec.ofNat 128 j }
  | _, _ => none

/-- Operand bytes of RING_BIND. -/
def bindBytes (o : BindOps) : List Byte :=
  packFields [(1, o.ring.toNat), (1, o.mtu.toNat), (2, 0), (4, o.clientQpn.toNat), (4, o.clientPsn.toNat),
    (4, o.enginePsn.toNat), (16, o.clientIp.toNat)]

/-- The operands of RING_BIND. -/
def bindOf (b : List Byte) : Option BindOps :=
  match cutFields [1, 1, 2, 4, 4, 4, 16] b with
  | [r, m, _, q, c, e, i] => some {
      ring := BitVec.ofNat 8 r
      mtu := BitVec.ofNat 8 m
      clientQpn := BitVec.ofNat 32 q
      clientPsn := BitVec.ofNat 32 c
      enginePsn := BitVec.ofNat 32 e
      clientIp := BitVec.ofNat 128 i }
  | _ => none

/-! ### The commands (R617) -/

/-- Header, opcode and operand bytes of a host command. -/
def hostEncode : Instr → Option (MgmtHdr × Nat × List Byte)
  | .engineSetState m t d => some (m, 0x0001, packFields [(1, t.toNat), (3, 0), (4, d.toNat)])
  | .districtSetState m d t => some (m, 0x0002, packFields [(1, d.toNat), (1, t.toNat), (6, 0)])
  | .setClockMode m d c => some (m, 0x0003, packFields [(1, d.toNat), (1, c.toNat), (6, 0)])
  | .setRation m d p r => some (m, 0x0004, packFields [(1, d.toNat), (1, 0), (2, p.toNat), (2, r.toNat), (2, 0)])
  | .setCap m c => some (m, 0x0005, packFields [(4, c.toNat), (4, 0)])
  | .setValve m q p d => some (m, 0x0006, packFields [(2, q.toNat), (2, p.toNat), (4, 0), (16, d.toNat)])
  | .modelLoad m o => some (m, 0x0007, loadBytes o)
  | .modelUnload m k s f => some (m, 0x0008, packFields [(1, k.toNat), (1, s.toNat), (1, f.toNat), (5, 0)])
  | .layerSetResidency m l r => some (m, 0x0009, packFields [(2, l.toNat), (1, r.toNat), (5, 0)])
  | .traverse m c d p l k => some (m, 0x000A,
      packFields [(1, c.toNat), (1, d.toNat), (2, p.toNat), (1, l.toNat), (1, k.toNat), (2, 0)])
  | .prefixRelease m h => some (m, 0x000B, packFields [(8, h.toNat)])
  | .quote m c f => some (m, 0x000C, packFields [(32, c.toNat), (1, f.toNat), (7, 0)])
  | .fabricSetConfig m o => some (m, 0x000D, fabricBytes o)
  | .ringBind m o => some (m, 0x000E, bindBytes o)
  | .ownerSet m k => some (m, 0x000F, packFields [(64, k.toNat)])
  | .mgmtKey m c g => some (m, 0x0010, c ++ packFields [(64, g.toNat)])
  | .trustSet m a b => some (m, 0x0011, packFields [(1, a.toNat), (7, 0), (64, b.toNat)])
  | .firmwareUpdate m o l d => some (m, 0x0012, packFields [(4, o.toNat), (2, d.length), (1, l.toNat), (1, 0)] ++ d)
  | .engineReset m => some (m, 0x0013, [])
  | .regRead m a c k => some (m, 0x0014, packFields [(8, a.toNat), (2, c.toNat), (1, k.toNat), (5, 0)])
  | _ => none

/-- The command of an opcode and operand bytes; what the reserved bytes hold is not looked at. -/
def hostDecode (m : MgmtHdr) (op : Nat) (b : List Byte) : Option Instr :=
  match op with
  | 0x0001 => match cutFields [1, 3, 4] b with
    | [t, _, d] => some (.engineSetState m (BitVec.ofNat 8 t) (BitVec.ofNat 32 d))
    | _ => none
  | 0x0002 => match cutFields [1, 1, 6] b with
    | [d, t, _] => some (.districtSetState m (BitVec.ofNat 8 d) (BitVec.ofNat 8 t))
    | _ => none
  | 0x0003 => match cutFields [1, 1, 6] b with
    | [d, c, _] => some (.setClockMode m (BitVec.ofNat 8 d) (BitVec.ofNat 8 c))
    | _ => none
  | 0x0004 => match cutFields [1, 1, 2, 2, 2] b with
    | [d, _, p, r, _] => some (.setRation m (BitVec.ofNat 8 d) (BitVec.ofNat 16 p) (BitVec.ofNat 16 r))
    | _ => none
  | 0x0005 => match cutFields [4, 4] b with
    | [c, _] => some (.setCap m (BitVec.ofNat 32 c))
    | _ => none
  | 0x0006 => match cutFields [2, 2, 4, 16] b with
    | [q, p, _, d] => some (.setValve m (BitVec.ofNat 16 q) (BitVec.ofNat 16 p) (BitVec.ofNat 128 d))
    | _ => none
  | 0x0007 => (loadOf b).map (Instr.modelLoad m)
  | 0x0008 => match cutFields [1, 1, 1, 5] b with
    | [k, s, f, _] => some (.modelUnload m (BitVec.ofNat 8 k) (BitVec.ofNat 8 s) (BitVec.ofNat 8 f))
    | _ => none
  | 0x0009 => match cutFields [2, 1, 5] b with
    | [l, r, _] => some (.layerSetResidency m (BitVec.ofNat 16 l) (BitVec.ofNat 8 r))
    | _ => none
  | 0x000A => match cutFields [1, 1, 2, 1, 1, 2] b with
    | [c, d, p, l, k, _] => some (.traverse m (BitVec.ofNat 8 c) (BitVec.ofNat 8 d) (BitVec.ofNat 16 p) (BitVec.ofNat 8 l)
        (BitVec.ofNat 8 k))
    | _ => none
  | 0x000B => match cutFields [8] b with
    | [h] => some (.prefixRelease m (BitVec.ofNat 64 h))
    | _ => none
  | 0x000C => match cutFields [32, 1, 7] b with
    | [c, f, _] => some (.quote m (BitVec.ofNat 256 c) (BitVec.ofNat 8 f))
    | _ => none
  | 0x000D => (fabricOf b).map (Instr.fabricSetConfig m)
  | 0x000E => (bindOf b).map (Instr.ringBind m)
  | 0x000F => match cutFields [64] b with
    | [k] => some (.ownerSet m (BitVec.ofNat 512 k))
    | _ => none
  | 0x0010 => match cutFields [64] (b.drop 161) with
    | [g] => some (.mgmtKey m (b.take 161) (BitVec.ofNat 512 g))
    | _ => none
  | 0x0011 => match cutFields [1, 7, 64] b with
    | [a, _, k] => some (.trustSet m (BitVec.ofNat 8 a) (BitVec.ofNat 512 k))
    | _ => none
  | 0x0012 => match cutFields [4, 2, 1, 1] b with
    | [o, _, l, _] => some (.firmwareUpdate m (BitVec.ofNat 32 o) (BitVec.ofNat 8 l) (b.drop 8))
    | _ => none
  | 0x0013 => some (.engineReset m)
  | 0x0014 => match cutFields [8, 2, 1, 5] b with
    | [a, c, k, _] => some (.regRead m (BitVec.ofNat 64 a) (BitVec.ofNat 16 c) (BitVec.ofNat 8 k))
    | _ => none
  | _ => none

/-- The command that some operand bytes spell, where they are laid out as R617 says: reserved bytes 0, the length that of the
command. -/
def hostCommand (m : MgmtHdr) (op : Nat) (b : List Byte) : Option Instr :=
  match hostDecode m op b with
  | some i => if hostEncode i = some (m, op, b) then some i else none
  | none => none

end Sys2Proof.Machine
end

