-- ==== Sys2Proof/Machine/Sm3.lean ====
section
/-!
DEFINITION. The hash SM3 and HMAC over it, which the manual names as published standards (08 R255, 11 R332, 20 R570 to
R577). PRESUMED (log 20): taken from the standard's text, not from the manual.
-/
namespace Sys2Proof.Machine

/-- A 32-bit word rotated left. -/
def rotl (x : BitVec 32) (n : Nat) : BitVec 32 := x.rotateLeft (n % 32)

/-- P0 of the compression function. -/
def sm3P0 (x : BitVec 32) : BitVec 32 := x ^^^ rotl x 9 ^^^ rotl x 17

/-- P1 of the message expansion. -/
def sm3P1 (x : BitVec 32) : BitVec 32 := x ^^^ rotl x 15 ^^^ rotl x 23

/-- The words of a block and its expansion, newest first; `n` more words to form. -/
def sm3Expand : Nat → List (BitVec 32) → List (BitVec 32)
  | 0, w => w
  | n + 1, w =>
    let g (k : Nat) : BitVec 32 := w.getD (k - 1) 0
    sm3Expand n ((sm3P1 (g 16 ^^^ g 9 ^^^ rotl (g 3) 15) ^^^ rotl (g 13) 7 ^^^ g 6) :: w)

/-- The eight registers of the compression function. -/
structure Sm3Regs where
  a : BitVec 32
  b : BitVec 32
  c : BitVec 32
  d : BitVec 32
  e : BitVec 32
  f : BitVec 32
  g : BitVec 32
  h : BitVec 32
deriving DecidableEq, Repr

/-- One round. -/
def sm3Round (j : Nat) (w w' : BitVec 32) (r : Sm3Regs) : Sm3Regs :=
  let t : BitVec 32 := if j < 16 then 0x79CC4519#32 else 0x7A879D8A#32
  let ss1 := rotl (rotl r.a 12 + r.e + rotl t j) 7
  let ss2 := ss1 ^^^ rotl r.a 12
  let ff := if j < 16 then r.a ^^^ r.b ^^^ r.c else (r.a &&& r.b) ||| (r.a &&& r.c) ||| (r.b &&& r.c)
  let gg := if j < 16 then r.e ^^^ r.f ^^^ r.g else (r.e &&& r.f) ||| (~~~r.e &&& r.g)
  let tt1 := ff + r.d + ss2 + w'
  let tt2 := gg + r.h + ss1 + w
  { a := tt1
    b := r.a
    c := rotl r.b 9
    d := r.c
    e := sm3P0 tt2
    f := r.e
    g := rotl r.f 19
    h := r.g }

/-- Rounds from number `j` on over the expanded words. -/
def sm3Rounds (ws : List (BitVec 32)) : Nat → Nat → Sm3Regs → Sm3Regs
  | 0, _, r => r
  | n + 1, j, r => sm3Rounds ws n (j + 1) (sm3Round j (ws.getD j 0) (ws.getD j 0 ^^^ ws.getD (j + 4) 0) r)

/-- The big-endian words of some bytes, at most `n`. -/
def beWords : Nat → List Byte → List (BitVec 32)
  | 0, _ => []
  | n + 1, bs => BitVec.ofNat 32 ((bs.take 4).foldl (fun (a : Nat) b => 256 * a + b.toNat) 0) :: beWords n (bs.drop 4)

/-- One 64-byte block into the registers. -/
def sm3Block (r : Sm3Regs) (b : List Byte) : Sm3Regs :=
  let ws := (sm3Expand 52 (beWords 16 b).reverse).reverse
  let q := sm3Rounds ws 64 0 r
  { a := q.a ^^^ r.a
    b := q.b ^^^ r.b
    c := q.c ^^^ r.c
    d := q.d ^^^ r.d
    e := q.e ^^^ r.e
    f := q.f ^^^ r.f
    g := q.g ^^^ r.g
    h := q.h ^^^ r.h }

/-- `n` as `k` big-endian bytes. -/
def beBytes (n : Nat) : Nat → List Byte
  | 0 => []
  | k + 1 => BitVec.ofNat 8 (n / 256 ^ k) :: beBytes n k

/-- Blocks of a padded message in turn, at most `n`. -/
def sm3Blocks : Nat → Sm3Regs → List Byte → Sm3Regs
  | 0, r, _ => r
  | n + 1, r, bs => sm3Blocks n (sm3Block r (bs.take 64)) (bs.drop 64)

/-- A message padded to whole blocks. -/
def sm3Pad (m : List Byte) : List Byte :=
  m ++ [0x80] ++ List.replicate ((119 - m.length % 64) % 64) 0 ++ beBytes (8 * m.length) 8

/-- The 32 digest bytes of SM3. -/
def sm3 (m : List Byte) : List Byte :=
  let p := sm3Pad m
  let r := sm3Blocks (p.length / 64) {
    a := 0x7380166F#32, b := 0x4914B2B9#32, c := 0x172442D7#32, d := 0xDA8A0600#32,
    e := 0xA96F30BC#32, f := 0x163138AA#32, g := 0xE38DEE4D#32, h := 0xB0FB0E4E#32 } p
  [r.a, r.b, r.c, r.d, r.e, r.f, r.g, r.h].flatMap (fun w => beBytes w.toNat 4)

/-- HMAC-SM3 under a 32-byte key. -/
def hmacSm3 (key m : List Byte) : List Byte :=
  let k := key ++ List.replicate (64 - key.length) 0
  sm3 (k.map (fun b => b ^^^ 0x5C) ++ sm3 (k.map (fun b => b ^^^ 0x36) ++ m))

end Sys2Proof.Machine
end

