-- ==== Sys2Proof/Machine/Sm4.lean ====
section
/-!
DEFINITION. The block cipher SM4 and GCM over it, which the manual names as published standards (11 R335). PRESUMED (log 20): taken
from the standards' texts, not from the manual.
-/
namespace Sys2Proof.Machine

/-- The 256 entries of the substitution box, entry 0 in the highest byte. -/
def sm4Box : Nat :=
  0xD690E9FECCE13DB716B614C228FB2C052B679A762ABE04C3AA441326498606999C4250F491EF987A33540B43EDCFAC62E4B31CA9C908E89580DF94FA758F3FA64707A7FCF37317BA83593C19E6854FA8686B81B27164DA8BF8EB0F4B70569D351E240E5E6358D1A225227C3B01217887D40046579FD327524C3602E7A0C4C89EEABF8AD240C738B5A3F7F2CEF96115A1E0AE5DA49B341A55AD933230F58CB1E31DF6E22E8266CA60C02923AB0D534E6FD5DB3745DEFD8E2F03FF6A726D6C5B518D1BAF92BBDDBC7F11D95C411F105AD80AC13188A5CD7BBD2D74D012B8E5B4B08969974A0C96777E65B9F109C56EC68418F07DEC3ADC4D2079EE5F3ED7CB3948

/-- A byte substituted. -/
def sm4Sub (x : Byte) : Byte := BitVec.ofNat 8 (sm4Box / 256 ^ (255 - x.toNat))

/-- The bytes of a word substituted. -/
def sm4Tau (w : BitVec 32) : BitVec 32 :=
  sm4Sub (w.extractLsb' 24 8) ++ sm4Sub (w.extractLsb' 16 8) ++ sm4Sub (w.extractLsb' 8 8) ++ sm4Sub (w.extractLsb' 0 8)

/-- The linear step of a round. -/
def sm4L (w : BitVec 32) : BitVec 32 := w ^^^ rotl w 2 ^^^ rotl w 10 ^^^ rotl w 18 ^^^ rotl w 24

/-- The linear step of the key schedule. -/
def sm4Lk (w : BitVec 32) : BitVec 32 := w ^^^ rotl w 13 ^^^ rotl w 23

/-- Constant `i` of the key schedule: byte j is 7 (4 i + j) mod 256, the first in the highest place. -/
def sm4Ck (i : Nat) : BitVec 32 :=
  BitVec.ofNat 32 ((List.range 4).foldl (fun a j => 256 * a + 7 * (4 * i + j) % 256) 0)

/-- The four words of a block, first word first. -/
structure Sm4Regs where
  a : BitVec 32
  b : BitVec 32
  c : BitVec 32
  d : BitVec 32
deriving DecidableEq, Repr

/-- The words of a block. -/
def sm4Words (x : BitVec 128) : Sm4Regs :=
  { a := x.extractLsb' 96 32, b := x.extractLsb' 64 32, c := x.extractLsb' 32 32, d := x.extractLsb' 0 32 }

/-- One step: the words move on, and the new one takes the mix of the first with `f` of the others and `k`. -/
def sm4Step (f : BitVec 32 → BitVec 32) (k : BitVec 32) (x : Sm4Regs) : Sm4Regs :=
  { a := x.b, b := x.c, c := x.d, d := x.a ^^^ f (sm4Tau (x.b ^^^ x.c ^^^ x.d ^^^ k)) }

/-- The round keys from number `i` on. -/
def sm4Schedule : Nat → Nat → Sm4Regs → List (BitVec 32)
  | 0, _, _ => []
  | n + 1, i, x =>
    let y := sm4Step sm4Lk (sm4Ck i) x
    y.d :: sm4Schedule n (i + 1) y

/-- The round keys of a key. -/
def sm4Keys (key : BitVec 128) : List (BitVec 32) :=
  let k := sm4Words key
  sm4Schedule 32 0 { a := k.a ^^^ 0xA3B1BAC6, b := k.b ^^^ 0x56AA3350, c := k.c ^^^ 0x677D9197, d := k.d ^^^ 0xB27022DC }

/-- SM4 of one block, the block's and the key's first byte in the highest place. -/
def sm4 (key block : BitVec 128) : BitVec 128 :=
  let x := (sm4Keys key).foldl (fun r k => sm4Step sm4L k r) (sm4Words block)
  x.d ++ x.c ++ x.b ++ x.a

/-! ### GCM -/

/-- The number that some bytes spell, the first in the highest place. -/
def beNat (bs : List Byte) : Nat := bs.foldl (fun a b => 256 * a + b.toNat) 0

/-- A block times x in GCM's field, in which the highest bit is the coefficient of 1. -/
def gcmShift (v : BitVec 128) : BitVec 128 :=
  if v.getLsbD 0 then (v >>> 1) ^^^ BitVec.ofNat 128 (0xE1 * 2 ^ 120) else v >>> 1

/-- The sum of the multiples of `v` that the bits of `x` from bit `n` − 1 down choose. -/
def gcmMulFrom (x : BitVec 128) : Nat → BitVec 128 → BitVec 128 → BitVec 128
  | 0, _, z => z
  | n + 1, v, z => gcmMulFrom x n (gcmShift v) (if x.getLsbD n then z ^^^ v else z)

/-- The product of two blocks. -/
def gcmMul (x y : BitVec 128) : BitVec 128 := gcmMulFrom x 128 y 0

/-- The hash of some bytes, padded with zeros to whole blocks, on from `y`; at most `n` blocks. -/
def gcmHash (h : BitVec 128) : Nat → BitVec 128 → List Byte → BitVec 128
  | 0, y, _ => y
  | n + 1, y, bs =>
    if bs.isEmpty then y
    else
      let b := bs.take 16
      gcmHash h n (gcmMul (y ^^^ BitVec.ofNat 128 (beNat b * 256 ^ (16 - b.length))) h) (bs.drop 16)

/-- The tag of a ciphertext under a key, a 96-bit IV and additional data. -/
def gcmTag (key : BitVec 128) (iv aad text : List Byte) : List Byte :=
  let h := sm4 key 0
  let y := gcmHash h (text.length + 1) (gcmHash h (aad.length + 1) 0 aad) text
  let z := gcmMul (y ^^^ BitVec.ofNat 128 (8 * aad.length * 2 ^ 64 + 8 * text.length)) h
  beBytes (z ^^^ sm4 key (BitVec.ofNat 128 (beNat iv * 2 ^ 32 + 1))).toNat 16

end Sys2Proof.Machine
end

