-- ==== Sys2Proof/Machine/Stack.lean ====
section
/-!
DEFINITION. The stack space and its controllers (11 R335, R336; 12 R365 to R379), the load and store queues
(07 R225 to R227; 12 R374 to R376).
-/
namespace Sys2Proof.Machine

/-! ### The stack space (R365, R367) -/

/-- Bytes of the stack space. -/
def stackSize : Nat := 0x01EBBD028000

/-- What a stack byte that nothing has written reads as: the byte of a zero record (R149, R594). -/
def stackDflt (a : Nat) : Byte := (storedRecord (List.replicate 68 0)).getD (a % 72) 0

/-- A byte of the stack space as its stack holds it. -/
def Stacks.byte (k : Stacks) (a : Nat) : Byte := Sparse.get (Mem.get (stackDflt a) k.mem a) k.bad a

/-- `n` bytes of the stack space. -/
def State.stackRead (s : State) (a n : Nat) : List Byte := (List.range n).map (fun i => s.stk.byte (a + i))

/-- Bytes written to the stack space, parity with them; a record written whole is no longer lost. -/
def State.stackPut (s : State) (a : Nat) (bs : List Byte) : State :=
  { s with stk := { s.stk with
    mem := Mem.write stackDflt s.stk.mem a bs
    bad := s.stk.bad.filter (fun x => !(a ≤ x.1 && x.1 < a + bs.length))
    lostRecs := s.stk.lostRecs.filter (fun x => !(a ≤ x && x + 72 ≤ a + bs.length)) } }

/-- `n` records from record address `a` on made zero records (R149): what unwritten ones read as. -/
def State.zeroRecords (s : State) (a n : Nat) : State :=
  { s with stk := { s.stk with
    mem := s.stk.mem.clear a (72 * n)
    bad := s.stk.bad.filter (fun x => !(a ≤ x.1 && x.1 < a + 72 * n))
    lostRecs := s.stk.lostRecs.filter (fun x => !(a ≤ x && x < a + 72 * n)) } }

/-! ### Raw areas (R149, R318, R392) -/

/-- Payload byte `o` of an area of raw records that starts at stack address `a`. -/
def State.rawByte (s : State) (a o : Nat) : Byte := (s.stackRead (a + 72 * (o / 64) + 4 + o % 64) 1).headD 0

/-- `n` payload bytes of such an area from byte `o` on. -/
def State.rawRead (s : State) (a o n : Nat) : List Byte := (List.range n).map (fun i => s.rawByte a (o + i))

/-- The payload of record `k` of such an area, with the bytes of `bs` that fall in it put at `o` and on. -/
def State.rawMerge (s : State) (a o : Nat) (bs : List Byte) (k : Nat) : List Byte :=
  (List.range 64).map (fun i =>
    if o ≤ 64 * k + i then bs.getD (64 * k + i - o) (s.rawByte a (64 * k + i)) else s.rawByte a (64 * k + i))

/-- Payload bytes written from byte `o` on: each record they touch is stored anew with its CRC. -/
def State.rawWrite (s : State) (a o : Nat) (bs : List Byte) : State :=
  if bs.isEmpty then s
  else (List.range ((o + bs.length - 1) / 64 - o / 64 + 1)).foldl (fun (t : State) i =>
    t.stackPut (a + 72 * (o / 64 + i)) (storedRecord (rawBody (s.rawMerge a o bs (o / 64 + i))))) s

/-- The stripe of a stack address (R367). -/
def stripeOf (a : Nat) : Nat := a / 128 / 22

/-- The stack that holds a stack address (R367). -/
def stackOf (a : Nat) : Nat := (2 * stripeOf a + 2 + a / 128 % 22) % 24

/-- The byte address within its stack (R367). -/
def stackLocal (a : Nat) : Nat := stripeOf a * 128 + a % 128

/-- The stacks of the two parity granules of a stripe (R367). -/
def parityStacks (st : Nat) : Nat × Nat := ((2 * st) % 24, (2 * st + 1) % 24)

/-- The controller that serves a record: its first byte's stack; the P and then the Q stack of that stripe where it is lost
(R369, R371). -/
def Stacks.lead (k : Stacks) (a : Nat) : StackId :=
  let pq := parityStacks (stripeOf a)
  let n := if !k.lost.contains (stackOf a) then stackOf a else if !k.lost.contains pq.1 then pq.1 else pq.2
  ⟨n % 24, Nat.mod_lt _ (by decide)⟩

/-- Whether a record has a byte in a lost stack, so that serving it rebuilds it. -/
def Stacks.rebuilds (k : Stacks) (a : Nat) : Bool := k.lost.contains (stackOf a) || k.lost.contains (stackOf (a + 71))

/-- ENG.STACK_STAT.MODE (R371). -/
def Stacks.mode (k : Stacks) : Nat := min 3 k.lost.length

/-! ### Decryption (R335, R336) -/

/-- A key of an envelope, whose first byte is the lowest, as the cipher takes it (R580). -/
def keyBlock (k : BitVec 128) : BitVec 128 := BitVec.ofNat 128 (beNat (leBytes k.toNat 16))

/-- Byte `o` of the key stream of segment `seg`. -/
def keyByte (k : KeySlot) (seg o : Nat) : Byte :=
  let nonce := (List.range 8).foldl (fun (a : Nat) i => a * 256 + k.nonce.toNat / 2 ^ (8 * i) % 256) 0
  let block := BitVec.ofNat 128 ((nonce * 2 ^ 32 + seg % 2 ^ 32) * 2 ^ 32 + (2 + o / 16) % 2 ^ 32)
  BitVec.ofNat 8 ((sm4 (keyBlock k.key) block).toNat / 2 ^ (8 * (15 - o % 16)))

/-- The bytes at plaintext offset `o` of segment `seg`, enciphered or deciphered. -/
def cipherBytes (k : KeySlot) (seg o : Nat) (bs : List Byte) : List Byte :=
  bs.zipIdx.map (fun b => b.1 ^^^ keyByte k seg (o + b.2))

/-- The 68 body bytes of record `r` read from stack address `a` through window `w`: deciphered under its key slot. -/
def openRecord (keys : Sparse KeySlot) (w : Window) (a : Nat) (r : List Byte) : List Byte :=
  if w.key = 0 then r.take 68
  else
    let seg := w.first + (a - w.base) / (72 * w.segLen)
    let k := (a - w.base) % (72 * w.segLen) / 72
    cipherBytes (Sparse.get {} keys w.key) seg (68 * k) (r.take 68)

/-! ### Windows and checks (R225, R375) -/

/-- The lowest-numbered window that a run of `n` records at `a` lies in and may use. -/
def ParcelState.windowOf (ps : ParcelState) (store fw : Bool) (a n : Nat) : Option Nat :=
  (List.range (if fw then 16 else 12)).find? (fun i =>
    let w := Sparse.get {} ps.win i
    (if store then w.w else w.r) && w.length > 0 && w.base ≤ a && a + 72 * n ≤ w.base + w.length)

/-- Whether an STQ's range touches a window with a key (R336). -/
def ParcelState.touchesKeyed (ps : ParcelState) (a n : Nat) : Bool :=
  (List.range 16).any (fun i =>
    let w := Sparse.get {} ps.win i
    w.key ≥ 1 && overlap a (72 * n) w.base w.length)

/-- Bytes of a record in SRAM (R225). -/
def recBytes (raw : Bool) : Nat := if raw then 64 else 68

/-- The queue operand exception of an entry (R174, R225, R336, R375). -/
def ParcelState.queueBad (ps : ParcelState) (e : QueEntry) : Bool :=
  e.addr % 72 ≠ 0 || e.addr + 72 * e.n > stackSize || e.sram % (if e.raw then 8 else 4) ≠ 0 ||
  !unitOpen e.fw e.sram (recBytes e.raw * e.n) || (ps.windowOf e.store e.fw e.addr e.n).isNone ||
  (e.store && ps.touchesKeyed e.addr e.n)

/-! ### Issue -/

/-- Issue of LDQ or STQ into its queue of 32 (R195, R225). -/
def queIssue (store : Bool) (p : Pid) (o : QueOps) (s : State) : Out :=
  s.issueAt p 5 (o.rsv ≠ 0) (fun ps =>
    ps.issueUnit 5 o.tk ((if store then ps.sq else ps.lq).length < 32) (fun q id =>
      let e : QueEntry := {
        id := id
        order := id
        store := store
        tag := o.tag
        tk := o.tk
        raw := o.raw
        addr := (ps.gReg o.ra.toNat).toNat
        n := o.cm1.toNat + 1
        sram := (ps.gReg o.rs.toNat).toNat
        fw := ps.swp.fw
        epc := ps.pc
        started := false
        seen := []
        sent := 0
        acked := 0
        win := 0 }
      if store then { q with sq := q.sq ++ [e] } else { q with lq := q.lq ++ [e] })) o.tag.toNat

/-- LDQ. -/
def execLdq (p : Pid) (o : QueOps) (s : State) : Out := queIssue false p o s
/-- STQ. -/
def execStq (p : Pid) (o : QueOps) (s : State) : Out := queIssue true p o s

/-! ### Running a queue (R199, R227, R272, R376, R378) -/

/-- The parcel with queue entry `e` in place of the one of its number. -/
def ParcelState.setEntry (ps : ParcelState) (e : QueEntry) : ParcelState :=
  if e.store then { ps with sq := ps.sq.map (fun x => if x.id = e.id then e else x) }
  else { ps with lq := ps.lq.map (fun x => if x.id = e.id then e else x) }

/-- The parcel without entry `id`; its token completes. -/
def ParcelState.endEntry (ps : ParcelState) (e : QueEntry) : ParcelState :=
  ({ ps with
    lq := ps.lq.filter (fun x => x.id ≠ e.id)
    sq := ps.sq.filter (fun x => x.id ≠ e.id) }).complete e.id e.tk

/-- Whether an earlier entry of the parcel overlaps `e`'s stack range (R227). -/
def ParcelState.blocked (ps : ParcelState) (e : QueEntry) : Bool :=
  (ps.lq ++ ps.sq).any (fun x => x.order < e.order && overlap x.addr (72 * x.n) e.addr (72 * e.n))

/-- A queue operand exception: the entry and the later ones of its queue that have sent nothing are discarded (R199). -/
def ParcelState.queueFault (ps : ParcelState) (e : QueEntry) : ParcelState :=
  let q := if e.store then ps.sq else ps.lq
  let gone := q.filter (fun x => x.id == e.id || (x.order > e.order && !x.started))
  let stay := q.filter (fun x => !(gone.any (fun y => y.id == x.id)))
  let ps1 := if e.store then { ps with sq := stay } else { ps with lq := stay }
  (ps1.raise 9 (if e.store then 5 else 4) e.tag.toNat 0 e.epc e.fw).completeAll
    (gone.map (fun (x : QueEntry) => (x.id, x.tk)))

/-- The runs of a read, cut at the 1,152-byte groups: index of the first record and count (R376). -/
def groupRuns (a n : Nat) : List (Nat × Nat) :=
  let g0 := a / 1152
  let g1 := (a + 72 * n - 1) / 1152
  (List.range (g1 - g0 + 1)).map (fun i =>
    let lo := max a ((g0 + i) * 1152)
    let hi := min (a + 72 * n) ((g0 + i + 1) * 1152)
    ((lo - a) / 72, (hi - lo) / 72))

/-- A data fault of parcel `p` in its present step. -/
def State.fault (s : State) (p : Pid) (k : DataFault) : State :=
  s.modParcel p (fun ps => ps.dataFault k ps.swp.step.toNat)

/-- Read requests of an entry injected in order, one for each group still to be requested, while the parcel's port takes them; a
destination without an entry ends the entry with a data fault (R272, R376). -/
def State.sendReads (s : State) (p : Pid) (e : QueEntry) (share : Nat) : List (Nat × Nat) → State
  | [] => s
  | r :: rs =>
    let k := s.stk.lead (e.addr + 72 * r.1)
    if !s.canSend 1 (.stack k) (.parcel p) then s
    else match s.inject 1 0 r.1 2 (.stack k) (.parcel p) (.readReq (.ldq e.id) r.1 r.2 (e.addr + 72 * r.1) share) with
      | none => (s.fault p .detour).modParcel p (fun ps => ps.endEntry e)
      | some t =>
        let e' := { e with started := true, sent := e.sent + 1 }
        (t.modParcel p (fun ps => ps.setEntry e')).sendReads p e' share rs

/-- The first load entry, in issue order, with requests to send that no earlier range overlaps. -/
def ParcelState.nextLoad (ps : ParcelState) : Option QueEntry :=
  ps.lq.find? (fun e => e.sent < (groupRuns e.addr e.n).length && !ps.blocked e)

/-- LDQ_RUN: the next load entry is checked when it starts, and sends its read requests (R376). -/
def State.ldqRun (s : State) (p : Pid) : State :=
  match (s.parcel p).nextLoad with
  | none => s
  | some e =>
    if !e.started && (s.parcel p).queueBad e then s.modParcel p (fun ps => ps.queueFault e)
    else
      let w := if e.started then e.win else ((s.parcel p).windowOf false e.fw e.addr e.n).getD 0
      s.sendReads p { e with win := w } (Sparse.get {} (s.parcel p).win w).share ((groupRuns e.addr e.n).drop e.sent)

/-- LDQ_RUN. -/
def execLdqRun (p : Pid) (s : State) : Out := .next (s.ldqRun p)

/-- Write credits of a parcel for a controller: reserved ones (2 of R293) and pool ones. -/
def ParcelState.hasWriteCredit (ps : ParcelState) (k : StackId) : Bool :=
  Sparse.get 2 ps.writeCredits k.val > 0 || Sparse.get 0 ps.poolCredits k.val > 0

/-- A credit taken, a pool credit first; and whether it is a pool credit. -/
def ParcelState.takeCredit (ps : ParcelState) (k : StackId) : ParcelState × Bool :=
  if Sparse.get 0 ps.poolCredits k.val > 0 then
    ({ ps with poolCredits := Sparse.put ps.poolCredits k.val (Sparse.get 0 ps.poolCredits k.val - 1) }, true)
  else ({ ps with writeCredits := Sparse.put ps.writeCredits k.val (Sparse.get 2 ps.writeCredits k.val - 1) }, false)

/-- A write flit injected by parcel `p` on VC3 under a credit (R293). -/
def State.injectWrite (s : State) (p : Pid) (a : Nat) (bs : List Byte) (o : WriteOrigin) : Option State :=
  let k := s.stk.lead a
  let r := (s.parcel p).takeCredit k
  (s.setParcel p r.1).inject 3 0 0 4 (.stack k) (.parcel p) (.write a bs o r.2)

/-- Record `i` of an STQ as it stands in SRAM, with its CRC (R150, R226). -/
def ParcelState.storeRecord (ps : ParcelState) (e : QueEntry) (i : Nat) : List Byte :=
  let b := ps.read (e.sram + recBytes e.raw * i) (recBytes e.raw)
  storedRecord (if e.raw then rawBody b else b)

/-- Whether a write flit to stack address `a` may leave parcel `p`: it holds a write credit, and its port takes the flit (R293). -/
def State.canWrite (s : State) (p : Pid) (a : Nat) : Bool :=
  (s.parcel p).hasWriteCredit (s.stk.lead a) && s.canSend 3 (.stack (s.stk.lead a)) (.parcel p)

/-- Records of an STQ sent in order, at most `n` of them, while credits and the port allow. -/
def State.sendWrites (s : State) (p : Pid) (e : QueEntry) : Nat → State
  | 0 => s
  | n + 1 =>
    let a := e.addr + 72 * e.sent
    if !s.canWrite p a then s
    else match s.injectWrite p a ((s.parcel p).storeRecord e e.sent) (.stq e.id) with
      | none => (s.fault p .detour).modParcel p (fun q => q.endEntry e)
      | some t =>
        let e' := { e with started := true, sent := e.sent + 1 }
        (t.modParcel p (fun q => q.setEntry e')).sendWrites p e' n

/-- The first store entry, in issue order, with records to send that no earlier range overlaps. -/
def ParcelState.nextStore (ps : ParcelState) : Option QueEntry := ps.sq.find? (fun e => e.sent < e.n && !ps.blocked e)

/-- STQ_RUN: the next store entry is checked when it starts, and sends records while it holds write credits (R378). -/
def State.stqRun (s : State) (p : Pid) : State :=
  match (s.parcel p).nextStore with
  | none => s
  | some e =>
    if !e.started && (s.parcel p).queueBad e then s.modParcel p (fun ps => ps.queueFault e)
    else s.sendWrites p { e with win := ((s.parcel p).windowOf true e.fw e.addr e.n).getD 0 } (e.n - e.sent)

/-- STQ_RUN. -/
def execStqRun (p : Pid) (s : State) : Out := .next (s.stqRun p)

/-! ### Controllers (R370, R376 to R379) -/

/-- Whether flit `f` is at sink `e`. -/
def Flit.atSink (f : Flit) (e : Endpoint) : Bool := f.loc == .sink e

/-- The granules of a record that their stacks report uncorrectable; `erased` lists those stacks. -/
def Stacks.erasures (k : Stacks) (erased : List Nat) (a : Nat) : List Nat :=
  ([stackOf a, stackOf (a + 71)].eraseDups).filter (fun x => erased.contains x && !k.lost.contains x)

/-- A record read at its lead: erasures count, and it is rebuilt where a granule is missing (R370, R371); whether it cannot be,
for more than two granules of its stripe are missing. -/
def State.readRecord (s : State) (erased : List Nat) (a : Nat) : State × Bool :=
  let es := s.stk.erasures erased a
  let s1 := if es.isEmpty && !s.stk.rebuilds a then s
    else { s with stk := { s.stk with
      recon := satAdd 32 s.stk.recon 1
      erased := satAdd 16 s.stk.erased es.length } }
  (s1, s.stk.lostRecs.contains a || decide (s.stk.lost.length + es.length > 2))

/-- The responses to a read of `n` records from `a`, the first having index `i` in its run, as many as the lanes take; each leaves its own
lead (R376). Answers how many. -/
def State.respond (s : State) (erased : List Nat) (dst : Endpoint) (o : ReadOrigin) (i a : Nat) : Nat → State × Nat
  | 0 => (s, 0)
  | n + 1 =>
    if !s.canSend 2 dst (.stack (s.stk.lead a)) then (s, 0)
    else
      let r := s.readRecord erased a
      let s2 := (r.1.inject 2 0 i 3 dst (.stack (s.stk.lead a)) (.readResp o i (s.stackRead a 72) r.2)).getD r.1
      let q := s2.respond erased dst o (i + 1) (a + 72) n
      (q.1, q.2 + 1)

/-- The layers that run streamed though the image declares them resident, in ascending order of their index. -/
def Model.forcedNow (m : Model) : List Nat :=
  ((m.layers.filter (fun (l : LayerEnt) => !l.streamed && m.streamed.contains l.index)).map LayerEnt.index).mergeSort

/-- The share a layer holds in this pass: its own where it is declared streamed, an equal part of the fallback pool where it is forced,
the remainder of the pool going to the lower layers (R253); none where it runs resident. -/
def Model.shareNow (m : Model) (l : LayerEnt) : Nat :=
  if l.streamed then l.share
  else
    let f := m.forcedNow
    if !f.contains l.index then 0
    else m.fallbackShare / f.length + (if f.idxOf l.index < m.fallbackShare % f.length then 1 else 0)

/-- What a share class may have of a controller's bandwidth, in 1/344,064 of the planning bandwidth and the floor together: 1,280 for a
share, 16,384 for unshared traffic (R365, R383). DESIGN CHOICE (log 131): class 3 + i is that of layer entry i, with the share the layer
holds in this pass. -/
def State.classWeight (s : State) (c : Nat) : Nat :=
  match c with
  | 0 => 16384
  | 1 => 1280 * s.model.kvShare
  | 2 => 1280 * s.model.fallbackShare
  | n => 1280 * ((s.model.layers[n - 3]?).map s.model.shareNow).getD 0

/-- The share class and tenant of a read request. -/
def Flit.readClass (f : Flit) : Option (Nat × Nat) :=
  match f.payload with
  | .readReq _ _ _ _ share => some (share, f.tenant)
  | _ => none

/-- The read queue of a controller (R377), in order of arrival. -/
def State.readQueue (s : State) (k : StackId) : List Flit :=
  s.net.flits.filter (fun f => f.loc == .sink (.stack k) && f.readClass.isSome)

/-- The classes that wait at a controller, and the tenants that wait in a class. -/
def State.readClasses (s : State) (k : StackId) : List Nat := (s.readQueue k).filterMap (fun f => f.readClass.map Prod.fst)

/-- The tenants that wait in class `c`. -/
def State.readTenants (s : State) (k : StackId) (c : Nat) : List Nat :=
  (s.readQueue k).filterMap (fun f => f.readClass.bind (fun x => if x.1 = c then some x.2 else none))

/-- The request a controller serves next: the oldest of the share class whose turn it is, in class 1 of the tenant whose turn it is
(R291, R383). -/
def State.nextRead (s : State) (k : StackId) : Option Flit :=
  ((Sparse.get ({} : Turn) s.stk.turns (2 * k.val)).next 344064 s.classWeight (s.readClasses k)).bind (fun c =>
    let tenant := if c = 1 then (Sparse.get ({} : Turn) s.stk.turns (2 * k.val + 1)).next 256 s.easeOf (s.readTenants k 1) else none
    (s.readQueue k).find? (fun f => f.readClass.any (fun x => x.1 == c && (tenant.all (fun t => t == x.2)))))

/-- `n` records served of a request: the turns of its class and, in class 1, of its tenant are counted. -/
def State.countServed (s : State) (k : StackId) (f : Flit) (n : Nat) : State :=
  match f.readClass with
  | none => s
  | some (c, t) =>
    let u := Sparse.put s.stk.turns (2 * k.val) ((Sparse.get ({} : Turn) s.stk.turns (2 * k.val)).give (s.readClasses k) c n)
    let v := if c = 1 then Sparse.put u (2 * k.val + 1) ((Sparse.get ({} : Turn) u (2 * k.val + 1)).give (s.readTenants k 1) t n) else u
    { s with stk := { s.stk with turns := v } }

/-- A request served as far as the lanes take its responses; what is left of it stays in the read queue. -/
def State.serveRead (s : State) (k : StackId) (erased : List Nat) (f : Flit) : State :=
  match f.payload with
  | .readReq o first count a share =>
    let r := s.respond erased f.src o first a count
    let t := r.1.countServed k f r.2
    if r.2 = count then t.dropFlit f.id
    else { t with net := { t.net with flits := t.net.flits.map (fun g => if g.id = f.id then
      { g with payload := .readReq o (first + r.2) (count - r.2) (a + 72 * r.2) share } else g) } }
  | _ => s

/-- STACK_READ_REQUEST: the request at controller `k` is in its read queue, and the request whose turn it is under the shares is served
(R376, R377, R383). Nothing is served once three stacks are lost (R371). -/
def State.stackReadRequest (s : State) (k : StackId) (id : Nat) (erased : List Nat) : State :=
  match s.flit id with
  | none => s
  | some f =>
    if !f.atSink (.stack k) || f.readClass.isNone then s
    else if s.stk.mode ≥ 3 then s.dropFlit id
    else match s.nextRead k with
      | none => s
      | some g => s.serveRead k erased g

/-- STACK_READ_REQUEST; `erased` lists the stacks that report a granule of it uncorrectable. -/
def execStackReadRequest (k : StackId) (flit : Nat) (erased : List StackId) (s : State) : Out :=
  .next (s.stackReadRequest k flit (erased.map Fin.val))

/-- A load entry with one more of its records at hand; the last completes it (R206, R226). -/
def ParcelState.gotRecord (ps : ParcelState) (e : QueEntry) (i : Nat) : ParcelState :=
  let e' := { e with seen := if e.seen.contains i then e.seen else e.seen ++ [i] }
  if e'.seen.length ≥ e.n then ps.endEntry e else ps.setEntry e'

/-- A record returned to a load entry: lost data and a failed CRC are data faults and write nothing (R151, R370); else it
is deciphered and written at its place (R226, R336). -/
def ParcelState.loadRecord (ps : ParcelState) (keys : Sparse KeySlot) (e : QueEntry) (i : Nat) (r : List Byte)
    (lost : Bool) : ParcelState :=
  let step := ps.swp.step.toNat
  if lost then (ps.dataFault .lost step).gotRecord e i
  else if !recordOk r then ((ps.countCrc e.tag.toNat).dataFault (.record (e.addr + 72 * i)) step).gotRecord e i
  else
    let body := openRecord keys (Sparse.get {} ps.win e.win) (e.addr + 72 * i) r
    (ps.write (e.sram + recBytes e.raw * i) (if e.raw then body.drop 4 else body)).gotRecord e i

/-- A write counted as acknowledged for its source (R293). -/
def Stacks.countAck (x : Stacks) (k : StackId) (src : Endpoint) (o : WriteOrigin) (pool : Bool) : Stacks :=
  let b := if pool then 1 else 0
  { x with acks :=
    if x.acks.any (fun (c : AckCtr) => c.k == k && c.src == src) then
      x.acks.map (fun (c : AckCtr) => if c.k == k && c.src == src then { c with os := c.os ++ [o], back := c.back + b } else c)
    else x.acks ++ [{ k := k, src := src, os := [o], back := b }] }

/-- A counter told to its source on VC2 where the lanes take the flit; while more than 1,024 pool entries are free the controller grants
8 pool credits with it (R293, R379; DESIGN CHOICE, log 16: the manual lets it grant up to 8). -/
def State.sendAck (s : State) (c : AckCtr) : State :=
  if !s.canSend 2 c.src (.stack c.k) then s
  else
    let free := Sparse.get 4096 s.stk.pools c.k.val
    let grant := if free > 1024 then 8 else 0
    let s1 := { s with stk := { s.stk with
      acks := s.stk.acks.filter (fun (x : AckCtr) => !(x.k == c.k && x.src == c.src))
      pools := Sparse.put s.stk.pools c.k.val (free - grant) } }
    (s1.inject 2 0 0 5 c.src (.stack c.k) (.ackCount c.k c.os c.back grant)).getD s1

/-- Every counter that is not zero told to its source where VC2 takes it. -/
def State.sendAcks (s : State) : State := s.stk.acks.foldl State.sendAck s

/-- The share class of a write: that of the window of an STQ, KV_SHARE for page homes, else unshared (R375, R383). -/
def State.writeClass (s : State) (f : Flit) (o : WriteOrigin) : Nat :=
  match f.src, o with
  | .parcel p, .stq id => (((s.parcel p).sq.find? (fun e => e.id == id)).map (fun e => (Sparse.get {} (s.parcel p).win e.win).share)).getD 0
  | _, .home .. => 1
  | _, _ => 0

/-- A record written counts four times against its class, and in class 1 against its tenant: it can delay the class's next reads
(R366, R383). -/
def State.countWritten (s : State) (k : StackId) (f : Flit) (o : WriteOrigin) : State :=
  let c := s.writeClass f o
  let u := Sparse.put s.stk.turns (2 * k.val)
    ((Sparse.get ({} : Turn) s.stk.turns (2 * k.val)).give (s.readClasses k ++ [c]) c 4)
  let v := if c = 1 then Sparse.put u (2 * k.val + 1)
      ((Sparse.get ({} : Turn) u (2 * k.val + 1)).give (s.readTenants k 1 ++ [f.tenant]) f.tenant 4) else u
  { s with stk := { s.stk with turns := v } }

/-- STACK_WRITE: the lead writes data and parity and counts the record acknowledged (R293, R378, R379); it was never held back for shares
(R383). -/
def State.stackWrite (s : State) (k : StackId) (id : Nat) : State :=
  match s.flit id with
  | none => s
  | some f =>
    match f.payload with
    | .write a bs o pool =>
      if !f.atSink (.stack k) then s
      else if s.stk.mode ≥ 3 then s.dropFlit id
      else
        let s1 := ((s.dropFlit id).stackPut a bs).countWritten k f o
        let s2 := { s1 with stk := { s1.stk.countAck k f.src o pool with
          pools := Sparse.put s1.stk.pools k.val (Sparse.get 4096 s1.stk.pools k.val + (if pool then 1 else 0)) } }
        match s2.stk.acks.find? (fun (c : AckCtr) => c.k == k && c.src == f.src) with
        | some c => s2.sendAck c
        | none => s2
    | _ => s

/-- STACK_WRITE. -/
def execStackWrite (k : StackId) (flit : Nat) (s : State) : Out := .next (s.stackWrite k flit)

/-- One write of the parcel acknowledged: an STQ record, a home write of the step's present attempt, or a spill write (R226, R311, R381). -/
def ParcelState.acked (ps : ParcelState) (o : WriteOrigin) : ParcelState :=
  match o with
  | .stq id =>
    (match ps.sq.find? (fun e => e.id == id) with
    | none => ps
    | some e =>
      let e' := { e with acked := e.acked + 1 }
      if e'.acked ≥ e.n then ps.endEntry e else ps.setEntry e')
  | .home step slot run =>
    { ps with kv := { ps.kv with homeWrites := ps.kv.homeWrites.map (fun (h : HomeCount) =>
        if h.step = step ∧ h.slot = slot ∧ h.run = run then { h with n := h.n - 1 } else h) } }
  | .spill e =>
    { ps with lane := { ps.lane with spill := ps.lane.spill.map (fun (x : SpillEnt) =>
        if x.entry = e then { x with acked := x.acked + 1 } else x) } }
  | .port => ps

/-- Acknowledgements taken: store tokens complete and credits come back (R293). -/
def ParcelState.takeAcks (ps : ParcelState) (k : StackId) (os : List WriteOrigin) (back grant : Nat) : ParcelState :=
  let ps1 := os.foldl ParcelState.acked ps
  { ps1 with
    writeCredits := Sparse.put ps1.writeCredits k.val (Sparse.get 2 ps1.writeCredits k.val + (os.length - back))
    poolCredits := Sparse.put ps1.poolCredits k.val (Sparse.get 0 ps1.poolCredits k.val + grant) }

/-- POOL_CREDIT_RETURN: an unused pool credit goes back to its controller's pool (R379). -/
def execPoolCreditReturn (p : Pid) (k : StackId) (s : State) : Out :=
  .next (
    let n := Sparse.get 0 (s.parcel p).poolCredits k.val
    if n = 0 then s
    else
      let s1 := s.modParcel p (fun ps => { ps with poolCredits := Sparse.put ps.poolCredits k.val (n - 1) })
      { s1 with stk := { s1.stk with
        pools := Sparse.put s1.stk.pools k.val (Sparse.get 4096 s1.stk.pools k.val + 1) } })

end Sys2Proof.Machine
end

