-- ==== Sys2Proof/Machine/Lane.lean ====
section
/-!
DEFINITION. The lane unit: SND, RCV, MCS, and the rows SND_START, RCV_POST and RECORD_RECEIVE (07 R229 to R232, R234;
09 R272, R277, R288, R294; 12 R380, R381; 14 R436).
-/
namespace Sys2Proof.Machine

/-! ### The parcel's parameters (R203) -/

/-- A field of a PARAM register: `w` bits from bit `lo`. -/
def ParcelState.paramField (ps : ParcelState) (i lo w : Nat) : Nat := (Sparse.get 0 ps.swp.param i).toNat / 2 ^ lo % 2 ^ w

/-- This engine's ID. -/
def ParcelState.engine (ps : ParcelState) : Nat := ps.paramField 0 48 14
/-- Parcels of the model on this engine. -/
def ParcelState.nparcel (ps : ParcelState) : Nat := ps.paramField 0 32 16
/-- The head group's first logical parcel. -/
def ParcelState.hgFirst (ps : ParcelState) : Nat := ps.paramField 4 32 16
/-- Parcels of the head group. -/
def ParcelState.hgSize (ps : ParcelState) : Nat := ps.paramField 4 16 16
/-- The place in the head group. -/
def ParcelState.hgPos (ps : ParcelState) : Nat := ps.paramField 4 0 16

/-- Engine of a target register (R229). -/
def targetEngine (t : Word) : Nat := t.toNat / 2 ^ 48 % 2 ^ 14
/-- Logical parcel of a target register. -/
def targetParcel (t : Word) : Nat := t.toNat % 2 ^ 16

/-! ### Issue -/

/-- Issue into the lane queue of 16 (R195). -/
def laneIssue (p : Pid) (tag tk : BitVec 4) (illegal : Bool) (w : ParcelState → Nat → LaneWork) (s : State) : Out :=
  s.issueAt p 6 illegal (fun ps =>
    ps.issueUnit 6 tk (ps.lane.queue.length < 16) (fun q id =>
      { q with lane := { q.lane with queue := q.lane.queue ++ [w ps id] } })) tag.toNat

/-- SND. -/
def execSnd (p : Pid) (o : SndOps) (s : State) : Out :=
  laneIssue p o.tag o.tk (o.rsv ≠ 0) (fun ps id =>
    .snd id o.tag o.tk o.plan o.raw (o.cm1.toNat + 1) o.ch.toNat (ps.gReg o.rs.toNat).toNat (ps.gReg o.rt.toNat)
      ps.swp.fw ps.pc) s

/-- RCV. -/
def execRcv (p : Pid) (o : RcvOps) (s : State) : Out :=
  laneIssue p o.tag o.tk (o.rsvHi ≠ 0 || o.rsv ≠ 0) (fun ps id =>
    .rcv id o.tag o.tk o.raw (o.cm1.toNat + 1) o.ch.toNat (ps.gReg o.rd.toNat).toNat (ps.gReg o.rt.toNat)
      ps.swp.fw ps.pc) s

/-- MCS. -/
def execMcs (p : Pid) (o : McsOps) (s : State) : Out :=
  laneIssue p o.tag o.tk (o.rsvHi ≠ 0 || o.rsv ≠ 0) (fun ps id =>
    .mcs id o.tag o.tk o.raw (o.cm1.toNat + 1) o.ch.toNat (ps.gReg o.rs.toNat).toNat o.tree.toNat ps.swp.fw ps.pc) s

/-- Number and token counter of a lane instruction. -/
def LaneWork.idTk : LaneWork → Nat × BitVec 4
  | .snd id _ tk .. => (id, tk)
  | .rcv id _ tk .. => (id, tk)
  | .mcs id _ tk .. => (id, tk)

/-- The tag of a lane instruction. -/
def LaneWork.tag : LaneWork → BitVec 4
  | .snd _ tag .. => tag
  | .rcv _ tag .. => tag
  | .mcs _ tag .. => tag

/-- EPC and bank of a lane instruction. -/
def LaneWork.bank : LaneWork → Nat × Bool
  | .snd _ _ _ _ _ _ _ _ _ fw epc => (epc, fw)
  | .rcv _ _ _ _ _ _ _ _ fw epc => (epc, fw)
  | .mcs _ _ _ _ _ _ _ _ fw epc => (epc, fw)

/-- A lane operand exception of the instruction at the head of the queue: it and those behind it are discarded (R199). -/
def ParcelState.laneFault (ps : ParcelState) (tag : BitVec 4) (epc : Nat) (fw : Bool) : ParcelState :=
  ({ ps with lane := { ps.lane with queue := [], sending := none } }.raise 10 6 tag.toNat 0 epc fw).completeAll
    (ps.lane.queue.map LaneWork.idTk)

/-- The head of the lane queue leaves it. -/
def ParcelState.lanePop (ps : ParcelState) : ParcelState := { ps with lane := { ps.lane with queue := ps.lane.queue.drop 1 } }

/-! ### Sending (R230, R232) -/

/-- The plan entry of a flow. -/
def State.planFlow (s : State) (src dst ch : Nat) : Option PlanFlow :=
  s.net.plan.find? (fun f => f.src == src && f.dst == dst && f.ch == ch)

/-- Record `i` of a run in SRAM, with its CRC (R150). -/
def ParcelState.sendRecord (ps : ParcelState) (src : Nat) (raw : Bool) (i : Nat) : List Byte :=
  let b := ps.read (src + recBytes raw * i) (recBytes raw)
  storedRecord (if raw then rawBody b else b)

/-- The next sequence number of a flow sent from the parcel. -/
def ParcelState.sentNext (ps : ParcelState) (tree : Bool) (eng lp ch : Nat) : Nat :=
  ((ps.lane.sent.find? (fun f => f.tree == tree && f.eng == eng && f.lp == lp && f.ch == ch)).map SentFlow.next).getD 0

/-- The flow's next sequence number moved on by `n`. -/
def ParcelState.advanceSent (ps : ParcelState) (tree : Bool) (eng lp ch n : Nat) : ParcelState :=
  let f : SentFlow := { tree := tree, eng := eng, lp := lp, ch := ch, next := ps.sentNext tree eng lp ch + n }
  { ps with lane := { ps.lane with sent := f :: ps.lane.sent.filter (fun g =>
      !(g.tree == tree && g.eng == eng && g.lp == lp && g.ch == ch)) } }

/-- Whether a port block has a live link, no failed oscillator and a route from district `d` (R436, R449, R501). -/
def State.portLive (s : State) (d : Nat) (k : PortId) : Bool :=
  let x := Sparse.get {} s.fab.ports k.val
  s.fab.ok && x.linkUp ≠ 0 && !x.oscFail && detKind (Sparse.get 0 (s.tableOf d) (84 + k.val)) ≠ 2

/-- The four port blocks nearest a district, nearest first, ties to the lower number (R436). -/
def nearestPorts (d : Nat) : List PortId :=
  let dist (k : PortId) : Nat := ((blockPlace (.port k)).map (fun b => distSteps d b.1)).getD 99
  ((List.range 20).flatMap (fun n => (List.finRange 16).filter (fun k => dist k == n))).take 4

/-- The engine ID of an ordinal of the group (R245): this engine's, its NEXT's, else one the manual does not say how the
registry learns. -/
def State.engineOf (s : State) (k : Nat) : Nat :=
  if k = s.model.ordinal then s.fab.engineId
  else if k = s.model.ordinal + 1 then s.model.next
  else (Config.groupEngine k).toNat

/-- Whether the egress tables have an entry for engine `e`: one of the group's (R436). -/
def State.hasEgress (s : State) (e : Nat) : Bool := (List.range s.model.nengine).any (fun k => s.engineOf k == e)

/-- The port block a flow to another engine leaves through (R436). DEDUCED (log 17): the CRC is taken over the two parcel
numbers, 2 bytes each, and CH, 1 byte. -/
def State.egressPort (s : State) (d src dst ch : Nat) : Option PortId :=
  let live := (nearestPorts d).filter (fun k => s.portLive d k)
  let h := crc32c (leBytes src 2 ++ leBytes dst 2 ++ leBytes ch 1)
  if live.isEmpty then none else live[h % live.length]?

/-- Whether a run in SRAM is aligned: a packed one to 4 bytes (R148). -/
def runAligned (raw : Bool) (a : Nat) : Bool := raw || a % 4 == 0

/-- The lane operand exception of a SND (R148, R174, R234). -/
def sndBad (ps : ParcelState) (flow : Option PlanFlow) (plan raw : Bool) (n src : Nat) (t : Word) (fw : Bool) : Bool :=
  let own := targetEngine t == ps.engine
  targetEngine t > 10239 || (own && targetParcel t ≥ ps.nparcel) || (plan && (!own || flow.isNone)) ||
  !unitOpen fw src (recBytes raw * n) || !runAligned raw src

/-- The lane operand exception of the send at the head of the lane queue (R234). -/
def State.sendBad (s : State) (ps : ParcelState) : LaneWork → Bool
  | .snd _ _ _ plan raw n ch src t fw _ => sndBad ps (s.planFlow ps.lparcel (targetParcel t) ch) plan raw n src t fw
  | .mcs _ _ _ raw n _ src tree fw _ =>
    !(s.net.trees.lookup tree).any (fun t => t.root == ps.lparcel) || !unitOpen fw src (recBytes raw * n) || !runAligned raw src
  | .rcv .. => false

/-- What a send puts onto the lanes: VC, channel, sequence number, destination, payload. -/
structure Sending where
  vc : Nat
  ch : Nat
  seq : Nat
  dst : Endpoint
  payload : Payload
deriving DecidableEq, Repr

/-- OFFSET of a logical parcel (R255 kind 3). -/
def State.offsetOf (s : State) (l : Nat) : Nat := ((s.model.parcels[l]?).map ParcelEnt.offset).getD 0

/-- Whether the present cycle is a slot of a flow (R247, R249): in one of its runs, delayed by the slip it was placed with. -/
def State.slotNow (s : State) (f : PlanFlow) : Bool :=
  (f.runs.zip f.slips).any (fun r =>
    decide ((s.clk.fclk % 4096 + 4096 - (s.offsetOf f.src + r.1.1 + r.2) % 4096) % 4096 < r.1.2))

/-- Flit `k` of a SND (R230, R277, R436): VC0 while its flow is in the plan and not demoted. -/
def State.sndFlit (s : State) (p : Pid) (plan raw : Bool) (ch src : Nat) (t : Word) (k : Nat) : Option Sending :=
  let ps := s.parcel p
  let flow : Flow := { eng := ps.engine, lp := ps.lparcel, ch := ch }
  let seq := ps.sentNext false (targetEngine t) (targetParcel t) ch + k
  let r := ps.sendRecord src raw k
  let step := ps.swp.step.toNat
  if targetEngine t = ps.engine then
    (s.net.place.lookup (targetParcel t)).map (fun q =>
      let demoted := ((s.planFlow ps.lparcel (targetParcel t) ch).map PlanFlow.demoted).getD true
      { vc := if plan && !demoted then 0 else 1, ch := ch, seq := seq, dst := .parcel q, payload := .record flow raw r step })
  else
    (if s.hasEgress (targetEngine t) then s.egressPort p.d.val ps.lparcel (targetParcel t) ch else none).map (fun x =>
      { vc := 1, ch := ch, seq := seq, dst := .port x
        payload := .egress flow (targetEngine t) (targetParcel t) seq raw r step })

/-- Flit `k` of an MCS of `n` records: first the records on VC5, then the unicast copies of R288, member by member. -/
def State.mcsFlit (s : State) (p : Pid) (raw : Bool) (n ch src tree k : Nat) : Option Sending :=
  let ps := s.parcel p
  let flow : Flow := { eng := ps.engine, lp := ps.lparcel, ch := ch }
  let i := k % n
  let seq := ps.sentNext true 0 tree ch + i
  let pl : Payload := .record flow raw (ps.sendRecord src raw i) ps.swp.step.toNat
  if k < n then some { vc := 5, ch := ch, seq := seq, dst := .tree tree, payload := pl }
  else (((Sparse.get {} s.net.routes tree).unicast[k / n - 1]?).bind (fun m => s.net.place.lookup m)).map (fun q =>
    { vc := 1, ch := ch, seq := seq, dst := .parcel q, payload := pl })

/-- Flit `k` of a send; none where it cannot leave (R272). -/
def State.sendFlit (s : State) (p : Pid) (k : Nat) : LaneWork → Option Sending
  | .snd _ _ _ plan raw _ ch src t _ _ => s.sndFlit p plan raw ch src t k
  | .mcs _ _ _ raw n ch src tree _ _ => s.mcsFlit p raw n ch src tree k
  | .rcv .. => none

/-- How many flits a send injects. -/
def State.sendTotal (s : State) : LaneWork → Nat
  | .snd _ _ _ _ _ n .. => n
  | .mcs _ _ _ _ n _ _ tree .. => n * (1 + (Sparse.get {} s.net.routes tree).unicast.length)
  | .rcv .. => 0

/-- A parcel whose send has put out all its records: its flow's sequence numbers move on. -/
def ParcelState.sentAll (ps : ParcelState) : LaneWork → ParcelState
  | .snd _ _ _ _ _ n ch _ t _ _ => ps.advanceSent false (targetEngine t) (targetParcel t) ch n
  | .mcs _ _ _ _ n ch _ tree _ _ => ps.advanceSent true 0 tree ch n
  | .rcv .. => ps

/-- The send at the head of the lane queue ends: its records are out, or it records a data fault where they cannot leave
(R272). -/
def State.sendEnd (s : State) (p : Pid) (w : LaneWork) (ok : Bool) : State :=
  (if ok then s else s.fault p .detour).modParcel p (fun ps =>
    let q := (if ok then ps.sentAll w else ps).lanePop
    { q with lane := { q.lane with sending := none } }.complete w.idTk.1 w.idTk.2)

/-- The send waits with `k` of its flits injected. -/
def State.sendWait (s : State) (p : Pid) (w : LaneWork) (k : Nat) : State :=
  s.modParcel p (fun ps => { ps with lane := { ps.lane with sending := some (w.idTk.1, k) } })

/-- Whether the flit of a send may leave now: its port takes it, and on VC0 the cycle is a slot of its flow (R249). -/
def State.sendOpen (s : State) (p : Pid) (w : LaneWork) (x : Sending) : Bool :=
  s.canSend x.vc x.dst (.parcel p) && (x.vc != 0 || (match w with
    | .snd _ _ _ _ _ _ ch _ t _ _ => (s.planFlow (s.parcel p).lparcel (targetParcel t) ch).any s.slotNow
    | _ => true))

/-- A send goes on from flit `k` with `m` flits still to inject: while its port takes them, on VC0 one in each slot (R230, R249). -/
def State.sendFrom (s : State) (p : Pid) (w : LaneWork) (k : Nat) : Nat → State
  | 0 => s.sendEnd p w true
  | m + 1 =>
    match s.sendFlit p k w with
    | none => s.sendEnd p w false
    | some x =>
      if !s.sendOpen p w x then s.sendWait p w k
      else match s.inject x.vc x.ch x.seq 0 x.dst (.parcel p) x.payload with
        | none => s.sendEnd p w false
        | some t => if x.vc = 0 && m ≠ 0 then t.sendWait p w (k + 1) else t.sendFrom p w (k + 1) m

/-- The flits that the send numbered `id` has injected; none where it has not started. -/
def LaneUnit.sentOf (u : LaneUnit) (id : Nat) : Option Nat :=
  match u.sending with
  | some x => if x.1 = id then some x.2 else none
  | none => none

/-- SND_START: the SND or MCS at the head of the lane queue is checked when it starts, and injects its records while its port takes them;
time carries it on (R230, R232, R249; log 2). -/
def State.sndStart (s : State) (p : Pid) : State :=
  match (s.parcel p).lane.queue with
  | [] => s
  | .rcv .. :: _ => s
  | w :: _ =>
    let k := (s.parcel p).lane.sentOf w.idTk.1
    if k.isNone && s.sendBad (s.parcel p) w then s.modParcel p (fun ps => ps.laneFault w.tag w.bank.1 w.bank.2)
    else s.sendFrom p w (k.getD 0) (s.sendTotal w - k.getD 0)

/-- SND_START. -/
def execSndStart (p : Pid) (s : State) : Out := .next (s.sndStart p)

/-! ### Receiving (R231, R294) -/

/-- Number of a record counted from the first of its posted buffer. -/
def recordIndex (base seq : Nat) : Nat := (seq + 4096 - base % 4096) % 4096

/-- A record into a posted buffer: a failed CRC writes nothing and is a data fault; the last record completes the token
(R151, R231). -/
def ParcelState.placeRecord (ps : ParcelState) (b : Posted) (k : Nat) (r : List Byte) (step : Nat) : ParcelState :=
  let ps1 :=
    if recordOk r then
      ps.write (b.dst + recBytes b.raw * k) (if b.raw then (r.take 68).drop 4 else r.take 68)
    else (ps.countCrc b.tag.toNat).dataFault .crc step
  let b' := { b with got := if b.got.contains k then b.got else b.got ++ [k] }
  if b'.got.length ≥ b.n then
    ({ ps1 with lane := { ps1.lane with
      posted := ps1.lane.posted.filter (fun x => x.id ≠ b.id)
      received := (b.flow, b.base + b.n) :: ps1.lane.received.filter (fun x => x.1 ≠ b.flow) } }).complete b.id b.tk
  else { ps1 with lane := { ps1.lane with posted := ps1.lane.posted.map (fun x => if x.id = b.id then b' else x) } }

/-- A record whose mode differs from its RCV's: the RCV and what is queued behind it are discarded (R199, R234). -/
def ParcelState.modeFault (ps : ParcelState) (b : Posted) : ParcelState :=
  let q := ps.lane.queue
  ({ ps with lane := { ps.lane with queue := [], sending := none, posted := ps.lane.posted.filter (fun x => x.id ≠ b.id) } }.raise 10 6
    b.tag.toNat 0 b.epc b.fw).completeAll ((b.id, b.tk) :: q.map LaneWork.idTk)

/-- A record for a posted buffer of its flow, where it falls in that buffer: `none` where it does not. -/
def ParcelState.offer (ps : ParcelState) (flow : Flow) (raw : Bool) (seq : Nat) (r : List Byte) (step : Nat) :
    Option ParcelState :=
  match ps.lane.posted.find? (fun b => b.flow == flow) with
  | none => none
  | some b =>
    let k := recordIndex b.base seq
    if k ≥ b.n then none
    else some (if raw == b.raw then ps.placeRecord b k r step else ps.modeFault b)

/-- The district code and unit of an endpoint in a flit header (R264). -/
def Endpoint.code : Endpoint → Nat
  | .parcel i => i.d.val * 256 + i.p.val
  | .tree t => 60 * 256 + t
  | .warden d => 61 * 256 + d.val
  | .stack k => 62 * 256 + k.val
  | .port p => 63 * 256 + p.val
  | .mgmt i => 63 * 256 + 16 + i.val

/-- The header word of a flit (R263). -/
def Flit.header (f : Flit) : Nat :=
  f.vc * 2 ^ 61 + f.tenant * 2 ^ 57 + f.ch * 2 ^ 51 + f.dst.code * 2 ^ 37 + f.src.code * 2 ^ 23 + f.seq * 2 ^ 11 +
    f.typ * 2 ^ 8 + f.leg * 2 ^ 6 + f.wayd

/-- The first usable address of a parcel's spill region (R380). -/
def spillBase (p : Pid) : Nat := (0x48000000 + p.key * 0x10000 + 1151) / 1152 * 1152

/-- The number of the next free spill entry in ring order. -/
def LaneUnit.freeSpill (u : LaneUnit) : Option Nat :=
  ((List.range 440).map (fun i => (u.spillNext + i) % 440)).find? (fun e => !u.spill.any (fun x => x.entry == e))

/-- A write flit under a credit where the parcel may send it. -/
def State.tryWrite (s : State) (p : Pid) (a : Nat) (bs : List Byte) (o : WriteOrigin) : Option State :=
  if s.canWrite p a then s.injectWrite p a bs o else none

/-- A record spilled to entry `e.entry`: header record and record leave on VC3 under write credits (R231, R266, R380); SPILLED counts it.
None while credits or the port do not allow it. -/
def State.spillRecord (s : State) (p : Pid) (f : Flit) (e : SpillEnt) (r : List Byte) : Option State :=
  let a := spillBase p + 144 * e.entry
  let head := storedRecord (leBytes 0 4 ++ (leBytes f.header 8 ++ leBytes e.step 4 ++ List.replicate 52 0))
  ((s.tryWrite p a head (.spill e.entry)).bind (fun t => t.tryWrite p (a + 72) r (.spill e.entry))).map (fun t =>
    t.modParcel p (fun ps => { ps with
      rtr := { ps.rtr with spilled := satAdd 32 ps.rtr.spilled 1 }
      lane := { ps.lane with
        spillNext := (e.entry + 1) % 440
        spill := ps.lane.spill ++ [e] } }))

/-- RECORD_RECEIVE: a record goes into the posted buffer of its flow, else into the receive store of 32, else into the spill
region of 440 entries; beyond that it is dropped as a data fault (R231, R294). It waits at the sink while its spill writes cannot
leave (R292). -/
def State.recordReceive (s : State) (p : Pid) (id : Nat) : State :=
  match s.flit id with
  | none => s
  | some f =>
    match f.payload with
    | .record flow raw r step =>
      if !f.atSink (.parcel p) then s
      else
        let s1 := s.dropFlit id
        let ps := s1.parcel p
        match ps.offer flow raw f.seq r step with
        | some ps' => s1.setParcel p ps'
        | none =>
          if ps.lane.store.length < 32 then
            s1.setParcel p { ps with lane := { ps.lane with
              store := ps.lane.store ++ [{ flow := flow, raw := raw, seq := f.seq, bytes := r, step := step }] } }
          else match ps.lane.freeSpill with
            | some e => (s1.spillRecord p f { entry := e, flow := flow, raw := raw, seq := f.seq, step := step } r).getD s
            | none => s1.setParcel p ({ ps with rtr := { ps.rtr with spilled := satAdd 32 ps.rtr.spilled 1 } }.dataFault
                .spill step)
    | _ => s

/-- RECORD_RECEIVE. -/
def execRecordReceive (p : Pid) (flit : Nat) (s : State) : Out := .next (s.recordReceive p flit)

/-- The held records of a flow offered to its buffer in the order of the store; those taken leave it. -/
def ParcelState.takeStore (ps : ParcelState) (flow : Flow) : List HeldRec → ParcelState
  | [] => ps
  | h :: hs =>
    if h.flow = flow then
      match ps.offer h.flow h.raw h.seq h.bytes h.step with
      | some q => ({ q with lane := { q.lane with store := q.lane.store.filter (fun x => x ≠ h) } }).takeStore flow hs
      | none => ps.takeStore flow hs
    else ps.takeStore flow hs

/-- Whether a spilled record is to be read back: it is written, not yet asked for, and a posted buffer takes it; a KAP row's is asked for
as soon as the append path may be free (R381). -/
def ParcelState.wantsBack (ps : ParcelState) (e : SpillEnt) : Bool :=
  decide (e.acked ≥ 2) && !e.reading &&
    (e.kap.isSome || ps.lane.posted.any (fun b => b.flow == e.flow && decide (recordIndex b.base e.seq < b.n)))

/-- The spilled record of an entry asked for on VC1 where the port takes the request (R381). -/
def State.readBackOne (s : State) (p : Pid) (e : SpillEnt) : State :=
  let a := spillBase p + 144 * e.entry + 72
  let k := s.stk.lead a
  if !s.canSend 1 (.stack k) (.parcel p) then s
  else match s.inject 1 0 0 2 (.stack k) (.parcel p) (.readReq (.spill e.entry) 0 1 a 0) with
    | none => s
    | some t => t.modParcel p (fun ps => { ps with lane := { ps.lane with spill := ps.lane.spill.map (fun (x : SpillEnt) =>
        if x.entry = e.entry then { x with reading := true } else x) } })

/-- The spilled records that are wanted read back in arrival order (R381). -/
def State.readBack (s : State) (p : Pid) : State :=
  ((s.parcel p).lane.spill.filter (s.parcel p).wantsBack).foldl (fun (t : State) e => t.readBackOne p e) s

/-- A spilled record back at its lane unit: into its posted buffer, which frees the entry; else it stays spilled (R381). -/
def ParcelState.spillBack (ps : ParcelState) (e : SpillEnt) (r : List Byte) : ParcelState :=
  match ps.offer e.flow e.raw e.seq r e.step with
  | some q => { q with lane := { q.lane with spill := q.lane.spill.filter (fun (x : SpillEnt) => x.entry ≠ e.entry) } }
  | none => { ps with lane := { ps.lane with spill := ps.lane.spill.map (fun (x : SpillEnt) =>
      if x.entry = e.entry then { x with reading := false } else x) } }

/-- RCV_POST: the RCV at the head of the lane queue is posted once no other of its flow is, and takes the records of its
flow that the store holds; those in the spill region are read back (R231, R381). -/
def State.rcvPost (s : State) (p : Pid) : State :=
  let ps := s.parcel p
  match ps.lane.queue with
  | .rcv id tag tk raw n ch dst t fw epc :: _ =>
    let flow : Flow := { eng := targetEngine t, lp := targetParcel t, ch := ch }
    if targetEngine t > 10239 || (targetEngine t == ps.engine && targetParcel t ≥ ps.nparcel) ||
        !unitOpen fw dst (recBytes raw * n) || !runAligned raw dst then s.modParcel p (fun ps => ps.laneFault tag epc fw)
    else if ps.lane.posted.any (fun b => b.flow == flow) then s
    else
      let b : Posted := {
        id := id
        tag := tag
        tk := tk
        flow := flow
        raw := raw
        n := n
        dst := dst
        base := (ps.lane.received.lookup flow).getD 0
        got := []
        fw := fw
        epc := epc }
      let ps1 := { ps.lanePop with lane := { ps.lanePop.lane with posted := ps.lane.posted ++ [b] } }
      (s.setParcel p (ps1.takeStore flow ps1.lane.store)).readBack p
  | _ => s

/-- RCV_POST. -/
def execRcvPost (p : Pid) (s : State) : Out := .next (s.rcvPost p)

end Sys2Proof.Machine
end

