-- ==== Sys2Proof/Machine/Kap.lean ====
section
/-!
DEFINITION. The KV append path: KAP and the rows KAP_SEND, APPEND_ACCEPT and KAP_ACK (05 R161; 07 R222 to R224, R234;
10 R302 to R313).
-/
namespace Sys2Proof.Machine

/-! ### Issue and sending (R222 to R224) -/

/-- KAP: issue into the append queue of 4 (R195, R222); the entry is free once its flits are out. -/
def execKap (p : Pid) (o : KapOps) (s : State) : Out :=
  s.issueAt p 4 (o.rsvHi ≠ 0 || o.rsv ≠ 0) (fun ps =>
    ps.issueUnit 4 o.tk ((ps.kapq.filter (fun k => !k.sent)).length < 4) (fun q id =>
      { q with kapq := q.kapq ++ [{
        id := id
        tag := o.tag
        tk := o.tk
        value := o.kind
        src := (ps.gReg o.rs.toNat).toNat
        desc := (ps.gReg o.ra.toNat).toNat
        fw := ps.swp.fw
        epc := ps.pc
        sent := false }] })) o.tag.toNat

/-- The descriptor of a KAP (R222). -/
structure KapDesc where
  seed : Nat
  pos : Nat
  layer : Nat
  head : Nat
  hgFirst : Nat
  hgSize : Nat
  slot : Nat
  rsv : Nat
deriving DecidableEq, Repr

/-- The descriptor in 32 bytes. -/
def kapDesc (b : List Byte) : KapDesc :=
  let f (o n : Nat) := leNat ((b.drop o).take n)
  { seed := f 0 8
    pos := f 8 4
    layer := f 12 2
    head := f 14 2
    hgFirst := f 16 2
    hgSize := f 18 2
    slot := f 20 2
    rsv := f 22 10 }

/-- The lane operand exception of a KAP (R174, R234). -/
def kapBad (ps : ParcelState) (w : KapWork) : Bool :=
  let d := kapDesc (ps.read w.desc 32)
  w.desc % 8 ≠ 0 || !unitOpen w.fw w.desc 32 || !unitOpen w.fw w.src 512 || d.rsv ≠ 0 || d.hgSize = 0 ||
  d.hgFirst + d.hgSize > ps.nparcel || d.pos > 1048575

/-- Key and base of a KAP's random lanes (R161). -/
def kapSr (d : KapDesc) (value : Bool) : Sr :=
  { key := mix (BitVec.ofNat 64 d.seed ^^^ 0x4B56000000000000#64 ^^^ BitVec.ofNat 64 (d.layer * 2 ^ 32) ^^^
      BitVec.ofNat 64 (d.head * 2) ^^^ (if value then 1 else 0))
    base := BitVec.ofNat 64 (d.pos * 65536) }

/-- The records of a KAP, as 68-byte bodies, and what encoding counts (R223). -/
def kapRecords (ps : ParcelState) (w : KapWork) : List (List Byte) × Ev :=
  let d := kapDesc (ps.read w.desc 32)
  let r := cvtSeq (if w.value then 5 else 11) (some (kapSr d w.value)) (decodeSeq 3 128 (ps.read w.src 512))
  (chunks 68 2 r.1, r.2)

/-- The logical parcel that owns a position (R223, R303). -/
def kapOwner (d : KapDesc) : Nat := d.hgFirst + d.pos / 256 % d.hgSize

/-- A KAP's records injected toward the owner. -/
def State.kapInject (s : State) (p q : Pid) (w : KapWork) (d : KapDesc) (recs : List (List Byte)) : Option State :=
  let step := (s.parcel p).swp.step.toNat
  recs.zipIdx.foldl (fun (a : Option State) x => a.bind (fun (t : State) =>
    t.inject 1 0 x.2 0 (.parcel q) (.parcel p) (.kapRow {
      step := step
      slot := d.slot
      layer := d.layer
      head := d.head
      value := w.value
      pos := d.pos
      part := x.2
      bytes := x.1
      issuer := p
      tk := w.tk
      tag := w.tag
      id := w.id }))) (some s)

/-- An exception of the append path: the KAP and those behind it are discarded (R199). -/
def ParcelState.kapFault (ps : ParcelState) (w : KapWork) : ParcelState :=
  let gone := ps.kapq.filter (fun k => !k.sent)
  ({ ps with kapq := ps.kapq.filter (fun k => k.sent) }.raise 10 3 w.tag.toNat 0 w.epc w.fw).completeAll
    (gone.map (fun (k : KapWork) => (k.id, k.tk)))

/-- KAP_SEND: the append path serves the oldest KAP: descriptor and source are read, the records are encoded with
stochastic rounding and injected on VC1 to the owner (R223, R224). It waits while its port does not take them (R267). -/
def State.kapSend (s : State) (p : Pid) : State :=
  match (s.parcel p).kapq.find? (fun k => !k.sent) with
  | none => s
  | some w =>
    let ps := s.parcel p
    if kapBad ps w then s.modParcel p (fun ps => ps.kapFault w)
    else
      let d := kapDesc (ps.read w.desc 32)
      let r := kapRecords ps w
      let s1 := s.modParcel p (fun ps => ps.count w.tag.toNat r.2)
      let gone := (s1.fault p .detour).modParcel p (fun ps =>
        ({ ps with kapq := ps.kapq.filter (fun k => k.id ≠ w.id) }).complete w.id w.tk)
      match s.net.place.lookup (kapOwner d) with
      | none => gone
      | some q =>
        if !s.canSendRun 1 (.parcel q) (.parcel p) r.1.length then s
        else match s1.kapInject p q w d r.1 with
          | some t => t.modParcel p (fun ps => { ps with
              kapq := ps.kapq.map (fun k => if k.id = w.id then { k with sent := true } else k) })
          | none => gone

/-- KAP_SEND. -/
def execKapSend (p : Pid) (s : State) : Out := .next (s.kapSend p)

/-- KAP_ACK: the owner's acknowledgement completes the token (R224, R312). -/
def State.kapAck (s : State) (p : Pid) (id : Nat) : State :=
  match s.flit id with
  | none => s
  | some f =>
    match f.payload with
    | .kapAck n =>
      if !f.atSink (.parcel p) then s
      else (s.dropFlit id).modParcel p (fun ps =>
        match ps.kapq.find? (fun k => k.id == n && k.sent) with
        | none => ps
        | some w => ({ ps with kapq := ps.kapq.filter (fun k => k.id ≠ n) }).complete w.id w.tk)
    | _ => s

/-- KAP_ACK. -/
def execKapAck (p : Pid) (flit : Nat) (s : State) : Out := .next (s.kapAck p flit)

/-! ### Frames and homes (R305 to R307, R330) -/

/-- Frames of the parcel. -/
def KvState.nframe (k : KvState) : Nat := k.cfg.toNat / 2 ^ 57
/-- KV heads of the head group. -/
def KvState.nkvh (k : KvState) : Nat := k.cfg.toNat / 2 ^ 52 % 32
/-- Offset of the step page list. -/
def KvState.splBase (k : KvState) : Nat := k.cfg.toNat / 2 ^ 24 % 2 ^ 24
/-- Offset of frame 0. -/
def KvState.frameBase (k : KvState) : Nat := k.cfg.toNat % 2 ^ 24
/-- Offset of frame `f` (R319). -/
def KvState.frameAt (k : KvState) (f : Nat) : Nat := k.frameBase + pageBytes * f
/-- The parcel's KV_BASE (R203). -/
def ParcelState.kvBase (ps : ParcelState) : Nat := (Sparse.get 0 ps.swp.param 3).toNat
/-- Stack address of home `h` of the parcel (R307, R324). -/
def ParcelState.homeAt (ps : ParcelState) (h : Nat) : Nat := ps.kvBase + 55296 * h

/-- The page of a slot and head that holds a position. -/
def KvState.page (k : KvState) (slot head n : Nat) : Option Page :=
  k.pages.find? (fun g => g.refs.contains slot && g.head == head && g.n == n)

/-- Record of a home and offset in a frame of key chunk `c` at row `r`, or of value chunk `c` at burst `r` (R305, R307). -/
def burstPlace (value : Bool) (c r : Nat) : Nat × Nat :=
  if value then (512 + 128 * c + r, 34816 + 8704 * c + 68 * r) else (256 * c + r, 17408 * c + 68 * r)

/-- A value row put into a value burst: two blocks of the row's record, with their scale bytes, at the places of position
`r` (R306, R310). -/
def mergeValue (old row : List Byte) (c r : Nat) : List Byte :=
  let b := 2 * (r % 2)
  let src := 2 * c
  let scale (i : Nat) : Byte := if i = b then row.getD src 0 else if i = b + 1 then row.getD (src + 1) 0 else old.getD i 0
  let part (i : Nat) : List Byte :=
    if i = b then (row.drop (4 + 16 * src)).take 16
    else if i = b + 1 then (row.drop (4 + 16 * (src + 1))).take 16
    else (old.drop (4 + 16 * i)).take 16
  (List.range 4).map scale ++ (List.range 4).flatMap part

/-- Whether the owner accepts a row: the slot is open for the row's step, the position lies in L to L + 31, and its page is
in a frame (R310, R320). -/
def KvState.accepts (k : KvState) (r : KapRow) : Option (Page × Nat) :=
  match k.open_.find? (fun o => o.slot == r.slot && o.step == r.step) with
  | none => none
  | some o =>
    if r.pos < o.len || r.pos > o.len + 31 then none
    else (k.page r.slot r.head (r.pos / 256)).bind (fun g => g.frame.map (fun f => (g, f)))

/-- The bursts a row changes: home record, frame offset and new bytes (R310). -/
def ParcelState.rowBursts (ps : ParcelState) (r : KapRow) (f : Nat) : List (Nat × Nat × List Byte) :=
  let base := ps.kv.frameAt f
  let row := r.pos % 256
  if r.value then
    [0, 1].map (fun c =>
      let pl := burstPlace true c (row / 2)
      (pl.1, base + pl.2, mergeValue (ps.read (base + pl.2) 68) r.bytes c row))
  else
    let pl := burstPlace false r.part row
    [(pl.1, base + pl.2, r.bytes)]

/-- Home writes counted as outstanding, for an attempt at the step. -/
def KvState.addHomeWrite (k : KvState) (step slot run n : Nat) : KvState :=
  if k.homeWrites.any (fun (h : HomeCount) => h.step == step && h.slot == slot && h.run == run) then
    { k with homeWrites := k.homeWrites.map (fun (h : HomeCount) =>
      if h.step = step ∧ h.slot = slot ∧ h.run = run then { h with n := h.n + n } else h) }
  else { k with homeWrites := k.homeWrites ++ [{ step := step, slot := slot, run := run, n := n }] }

/-- The row as staged. -/
def KapRow.staged (r : KapRow) : StagedRow := { step := r.step, slot := r.slot, head := r.head, value := r.value, pos := r.pos }

/-- Whether two records belong to one KAP. -/
def KapRow.sameKap (r q : KapRow) : Bool := r.issuer == q.issuer && r.id == q.id

/-- Whether this record ends its KAP at the owner: a value's only record, or the second of a key's two. -/
def KvState.ends (k : KvState) (r : KapRow) : Bool := r.value || k.halves.any (fun h => h.sameKap r)

/-- The records of the KAP that a record ends. -/
def KvState.kapOf (k : KvState) (r : KapRow) : List KapRow := k.halves.filter (fun h => h.sameKap r) ++ [r]

/-- The append path without what it held of a KAP. -/
def KvState.dropHalf (k : KvState) (r : KapRow) : KvState := { k with halves := k.halves.filter (fun h => !h.sameKap r) }

/-- The owner's state after accepting a KAP whose last record came: bursts written, the row staged and counted once. -/
def ParcelState.acceptRow (ps : ParcelState) (r : KapRow) (run : Nat) (bs : List (Nat × Nat × List Byte)) : ParcelState :=
  let ps1 := bs.foldl (fun (a : ParcelState) b => a.write b.2.1 b.2.2) ps
  let k := (ps1.kv.dropHalf r).addHomeWrite r.step r.slot run bs.length
  { ps1 with kv := { k with
    rowsStaged := satAdd 32 k.rowsStaged 1
    staged := if k.staged.contains r.staged then k.staged else k.staged ++ [r.staged] } }

/-- The attempt at a step that is under way (R411). -/
def State.attempt (s : State) (step : Nat) : Nat :=
  ((s.serve.steps.find? (fun (st : Step) => st.num == step % 2 ^ 32)).map Step.replays).getD 0

/-- The home writes of an accepted row, each under a write credit of the owner (R311, R378); none while they cannot leave. -/
def State.sendHome (s : State) (p : Pid) (g : Page) (r : KapRow) (bs : List (Nat × Nat × List Byte)) : Option State :=
  bs.foldl (fun (a : Option State) b => a.bind (fun (t : State) =>
    t.tryWrite p ((t.parcel p).homeAt g.home + 72 * b.1) (storedRecord b.2.2) (.home r.step r.slot (s.attempt r.step)))) (some s)

/-- The lock that a staged row holds on its page (R547). -/
def KapRow.lock (r : KapRow) (p : Pid) : PageLock :=
  { slot := r.slot, layer := r.layer, head := r.head, n := r.pos / 256, step := r.step, parcel := p.p.val }

/-- A row taken by its owner: bursts, row, lock, home writes, and the acknowledgement on VC2; none while the owner cannot take it. -/
def State.takeRow (s : State) (p : Pid) (r : KapRow) (g : Page) (fr : Nat) : Option State :=
  let ps := s.parcel p
  let bs := (ps.kv.kapOf r).flatMap (fun q => ps.rowBursts q fr)
  let held := (s.dist p.d.val).locks.contains (r.lock p)
  if (!held && (s.dist p.d.val).locks.length ≥ 1024) || !s.canSend 2 (.parcel r.issuer) (.parcel p) then none
  else
    let s0 := s.modDist p.d.val (fun x => if held then x else { x with locks := x.locks ++ [r.lock p] })
    let s1 := s0.setParcel p (ps.acceptRow r (s.attempt r.step) bs)
    (s1.sendHome p g r bs).map (fun t => (t.inject 2 0 0 5 (.parcel r.issuer) (.parcel p) (.kapAck r.id)).getD t)

/-- A KAP record at its owner. A key's first record is held until the second comes; with the KAP's last record the row is taken, or where
the owner refuses it dropped, counted and reported as a data fault (R224, R310 to R312). None while the owner cannot take the row. -/
def State.appendRow (s : State) (p : Pid) (r : KapRow) : Option State :=
  let ps := s.parcel p
  if !ps.kv.ends r then some (s.setParcel p { ps with kv := { ps.kv with halves := ps.kv.halves ++ [r] } })
  else match ps.kv.accepts r with
    | none => some (s.setParcel p ({ ps with kv := { ps.kv.dropHalf r with appendDrop := satAdd 16 ps.kv.appendDrop 1 } }.dataFault
        .append r.step))
    | some (g, fr) => s.takeRow p r g fr

/-- A KAP record spilled while the append path is busy (R381). -/
def State.spillRow (s : State) (p : Pid) (f : Flit) (r : KapRow) : Option State :=
  (s.parcel p).lane.freeSpill.bind (fun e =>
    s.spillRecord p f { entry := e, flow := ⟨0, 0, 0⟩, raw := false, seq := f.seq, step := r.step, kap := some r } (storedRecord r.bytes))

/-- APPEND_ACCEPT: a KAP record at its owner (R310 to R312). While the owner holds no write credit for the row's home, has no room on its
port, or the district's lock table of 1,024 entries has none for the page (R547), the record spills; it waits where it cannot. -/
def State.appendAccept (s : State) (p : Pid) (id : Nat) : State :=
  match s.flit id with
  | none => s
  | some f =>
    match f.payload with
    | .kapRow r =>
      if !f.atSink (.parcel p) then s
      else match (s.dropFlit id).appendRow p r with
        | some t => t
        | none => ((s.dropFlit id).spillRow p f r).getD s
    | _ => s

/-- APPEND_ACCEPT. -/
def execAppendAccept (p : Pid) (flit : Nat) (s : State) : Out := .next (s.appendAccept p flit)

/-! ### Responses and acknowledgements at a parcel (R226, R293, R381) -/

/-- A spilled record back from its stack: lost data and a failed CRC are data faults and free the entry (R151, R564); a record goes to its
posted buffer, a KAP row to the append path. -/
def State.spillResponse (s : State) (p : Pid) (e : SpillEnt) (r : List Byte) (lost : Bool) : State :=
  let ps := s.parcel p
  let free := { ps with lane := { ps.lane with spill := ps.lane.spill.filter (fun (x : SpillEnt) => x.entry ≠ e.entry) } }
  if lost then s.setParcel p (free.dataFault .spill e.step)
  else if !recordOk r then s.setParcel p (free.dataFault (.record (spillBase p + 144 * e.entry + 72)) e.step)
  else match e.kap with
    | none => s.setParcel p (ps.spillBack e r)
    | some q => ((s.setParcel p free).appendRow p q).getD (s.setParcel p { ps with lane := { ps.lane with
        spill := ps.lane.spill.map (fun (x : SpillEnt) => if x.entry = e.entry then { x with reading := false } else x) } })

/-- STACK_READ_RESPONSE: a record arrives at the load queue, or at the lane unit that spilled it. -/
def State.stackReadResponse (s : State) (p : Pid) (id : Nat) : State :=
  match s.flit id with
  | none => s
  | some f =>
    if !f.atSink (.parcel p) then s
    else match f.payload with
      | .readResp (.ldq entry) i r lost => (s.dropFlit id).modParcel p (fun ps =>
          match ps.lq.find? (fun e => e.id == entry) with
          | none => ps
          | some e => ps.loadRecord s.stk.keys e i r lost)
      | .readResp (.spill n) _ r lost =>
        (match (s.parcel p).lane.spill.find? (fun (e : SpillEnt) => e.entry == n && e.reading) with
        | none => s.dropFlit id
        | some e => (s.dropFlit id).spillResponse p e r lost)
      | _ => s

/-- STACK_READ_RESPONSE. -/
def execStackReadResponse (p : Pid) (flit : Nat) (s : State) : Out := .next (s.stackReadResponse p flit)

/-- ACK_COUNT: store tokens complete and credits come back (R293); spilled records that are written may be read back (R381). -/
def State.ackCount (s : State) (p : Pid) (id : Nat) : State :=
  match s.flit id with
  | none => s
  | some f =>
    match f.payload with
    | .ackCount k os back grant =>
      if !f.atSink (.parcel p) then s
      else ((s.dropFlit id).modParcel p (fun ps => ps.takeAcks k os back grant)).readBack p
    | _ => s

/-- ACK_COUNT. -/
def execAckCount (p : Pid) (flit : Nat) (s : State) : Out := .next (s.ackCount p flit)

end Sys2Proof.Machine
end

