-- ==== Sys2Proof/Machine/Log.lean ====
section
/-!
DEFINITION. The fault log, event messages and management messages (19 R566 to R568; 20 R576, R577; 22 R613, R616, R619).
-/
namespace Sys2Proof.Machine

/-! ### Codes (R389, R470, R613) -/

/-- Status codes (R613). -/
abbrev stOk : Nat := 0
/-- BUSY_POWER. -/
abbrev stBusyPower : Nat := 1
/-- ILLEGAL_IN_STATE. -/
abbrev stIllegal : Nat := 2
/-- DEADLINE_EXPIRED. -/
abbrev stDeadline : Nat := 3
/-- CANCELLED. -/
abbrev stCancelled : Nat := 4
/-- COMPLETE. -/
abbrev stComplete : Nat := 5
/-- ALREADY_COMPLETE. -/
abbrev stAlready : Nat := 6
/-- SIGNATURE_BAD. -/
abbrev stSignature : Nat := 7
/-- KEY_BAD. -/
abbrev stKey : Nat := 8
/-- NO_SPARE. -/
abbrev stNoSpare : Nat := 9
/-- RESOURCE_REVOKED. -/
abbrev stRevoked : Nat := 10
/-- COOLANT_LOST. -/
abbrev stCoolant : Nat := 11
/-- REVERSED_FLOW. -/
abbrev stReversed : Nat := 12
/-- FEEDER_TRIP. -/
abbrev stFeeder : Nat := 13
/-- THERMAL_TRIP. -/
abbrev stThermal : Nat := 14
/-- HANDLE_STALE. -/
abbrev stStale : Nat := 15
/-- QUOTA_EXCEEDED. -/
abbrev stQuota : Nat := 16
/-- MALFORMED. -/
abbrev stMalformed : Nat := 17

/-- The engine state code (R389); 0 is unused. -/
def EngSt.code : EngSt → Nat
  | .off => 0 | .boot => 1 | .standby => 2 | .loaded => 3 | .serving => 4 | .draining => 5 | .fault => 6

/-- The district state code (R470). -/
def PSt.code : PSt → Nat
  | .dark => 0 | .active => 1 | .idle => 2 | .retain => 3 | .tripped => 4 | .spare => 5

/-! ### Management messages (R577, R616, R619) -/

/-- A message of the engine: header, results, and a trailer with the given counter where one is due and a management key is
held. -/
def State.mgmtBytes (s : State) (opcode status unit : Nat) (results : List Byte) (ctr : Option Nat) : List Byte :=
  let m := leBytes opcode 2 ++ leBytes 1 1 ++ leBytes status 1 ++ leBytes results.length 4 ++
    leBytes s.core.st.code 1 ++ leBytes unit 1 ++ leBytes 0 6 ++ results
  match ctr, s.nv.mkey with
  | some c, some k =>
    m ++ leBytes c 8 ++ leBytes 0 8 ++ hmacSm3 (leBytes k.toNat 32) (leBytes s.nv.serial.toNat 8 ++ leBytes c 8 ++ m)
  | _, _ => m

/-- A message put on the way out. -/
def State.emit (s : State) (m : OutMsg) : State := { s with out := s.out ++ [m] }

/-- A message the engine sends on its own (R619): to the source of the most recent command past step 2, with the event counter
in its trailer (R577); nowhere before any such command. -/
def State.notify (s : State) (opcode status : Nat) (results : List Byte) : State :=
  match s.mgmt.last with
  | none => s
  | some d =>
    let s1 := s.emit (.mgmt d.src d.v1 d.onMgmt 0 (s.mgmtBytes opcode status 0xFF results (some s.sec.evCtr)))
    { s1 with sec := { s1.sec with evCtr := s1.sec.evCtr + 1 } }

/-! ### The fault log (R566, R567) -/

/-- What an entry says beside time, number, engine and epoch. -/
structure LogEvent where
  code : Nat
  status : Nat := 0
  severity : Nat := 0
  d : Nat := 0xFF
  parcel : Nat := 0xFFFF
  lot : Nat := 0xFF
  detail : List Byte := []
deriving DecidableEq, Repr

/-- Number of the step in progress: the newest that is open, 0 where none is. -/
def State.stepNow (s : State) : Nat :=
  (((s.serve.steps.filter (fun (x : Step) => !x.committed)).getLast?).map Step.num).getD 0

/-- The 64-byte payload of an entry (R566). -/
def State.logEntry (s : State) (e : LogEvent) : List Byte :=
  let b := leBytes s.time.ns 8 ++ leBytes s.recov.count 4 ++ leBytes e.code 2 ++ leBytes e.status 1 ++
    leBytes e.severity 1 ++ leBytes s.fab.engineId 2 ++ leBytes e.d 1 ++ leBytes 0 1 ++ leBytes e.parcel 2 ++
    leBytes e.lot 1 ++ leBytes 0 1 ++ leBytes s.stepNow 4 ++ leBytes s.core.epoch 4 ++
    (e.detail ++ List.replicate 24 0).take 24 ++ leBytes 0 4
  b ++ leBytes (crc32c b) 4

/-- Stack address of entry `k` (R566). -/
def logAddr (k : Nat) : Nat := 0x40000200 + 72 * (k % 524288)

/-- An entry written; without a registry it cannot be, and counts in DROPPED. -/
def State.writeLog (s : State) (e : LogEvent) : State :=
  if s.core.epoch = 0 then { s with recov := { s.recov with dropped := satAdd 16 s.recov.dropped 1 } }
  else
    let s1 := s.stackPut (logAddr s.recov.count) (storedRecord (rawBody (s.logEntry e)))
    { s1 with recov := { s1.recov with count := s1.recov.count + 1 } }

/-- Stack address of log record `n` in the checkpoint region, which lies in the system region below the fault log (R344). Where it lies
there is free (log 60). -/
def ckptAddr (n : Nat) : Nat := 72 * (Config.ckptSlot n).val

/-- Log record `n` written to the checkpoint region, as while DEP_VALID = 0 (R36). What a record holds is free (log 60). -/
def State.ckptWrite (s : State) (n : Nat) : State :=
  let s1 := s.stackPut (ckptAddr n) (storedRecord (rawBody (leBytes (Config.logBody n).toNat 64)))
  { s1 with core := { s1.core with ckpt := s1.core.ckpt ++ [n] } }

/-- An event raised: logged and sent to the host (R568). -/
def State.event (s : State) (e : LogEvent) : State :=
  let s1 := s.writeLog e
  if s.core.epoch = 0 then s1 else s1.notify 0x8102 e.status (s.logEntry e)

/-- A MALFORMED access put into the fault log (R43, R353, R612). -/
def State.malformed (s : State) (d parcel : Nat) : State :=
  s.writeLog { code := 51, status := stMalformed, d := d, parcel := parcel }

/-- The last 1,024 entries copied to module flash by the registry (R568). -/
def State.copyLog (s : State) : State :=
  let n := min s.recov.count 1024
  if s.core.epoch = 0 || n = 0 then s
  else { s with nv := { s.nv with flog := (List.range n).map (fun i =>
    (s.stackRead (logAddr (s.recov.count - n + i)) 72).drop 4 |>.take 64) } }

end Sys2Proof.Machine
end

