-- ==== Sys2Proof/Machine/Kv.lean ====
section
/-!
DEFINITION. The KV cache at its members: tables, homes and frames, sealing and summaries; the rows SUMMARY_RECEIVE and COMMIT_APPLY (10 R302 to R329).
-/
namespace Sys2Proof.Machine

/-! ### Summaries (R314) -/

/-- The dimensions of key `p` of a frame or a home: `rec` gives the 68-byte body of record `i` (R305, R307). -/
def keyDims (body : Nat → List Byte) (p : Nat) : List Val :=
  ((decodeBurst 11 (body p)) ++ (decodeBurst 11 (body (256 + p)))).map SrcElem.v

/-- The exact mean of 256 values. -/
def mean256 (vs : List Val) : Val := (vs.foldl Val.add (.fin false 0 0)).scale (-8)

/-- An exact nonnegative square root rounded toward plus infinity to binary32. -/
def f32SqrtUp : Val → F32
  | .nan => qnan
  | .inf _ => f32Inf false
  | .fin _ m e =>
    if m = 0 then 0
    else
      let g := max (leadExp m e / 2 - 23) (-149)
      let k := e - 2 * g
      let x := if 0 ≤ k then m * pow2 k else (m + pow2 (-k) - 1) / pow2 (-k)
      let r := isqrt x 30 0
      f32Pack false (if r * r = x then r else r + 1) g

/-- The larger of two exact nonnegative values; a NaN wins. -/
def valMax : Val → Val → Val
  | .nan, _ => .nan
  | _, .nan => .nan
  | .inf a, _ => .inf a
  | _, .inf b => .inf b
  | .fin a m e, .fin b n f =>
    let g := min e f
    if m * pow2 (e - g) < n * pow2 (f - g) then .fin b n f else .fin a m e

/-- The square of the distance between two vectors. -/
def distSq (a b : List Val) : Val :=
  (List.zipWith (fun (x y : Val) => let d := x.add y.neg; d.mul d) a b).foldl Val.add (.fin false 0 0)

/-- The 144-byte summary of a page (R219, R314). -/
def pageSummary (body : Nat → List Byte) : List Byte :=
  let keys := (List.range 256).map (keyDims body)
  let mean := (List.range 128).map (fun d => mean256 (keys.map (fun k => k.getD d .nan)))
  let enc := (encodeBursts 11 none 0 (chunks 64 2 mean)).1
  let dec := (decodeSeq 11 128 enc).map SrcElem.v
  let nu := f32SqrtUp ((keys.map (fun k => distSq k dec)).foldl valMax (.fin false 0 0))
  enc ++ leBytes nu.toNat 4 ++ List.replicate 4 0

/-- Record bodies of a page: from its frame where it is hot, else from its home. -/
def State.pageBody (s : State) (p : Pid) (g : Page) (i : Nat) : List Byte :=
  let ps := s.parcel p
  match g.frame with
  | some f => ps.read (ps.kv.frameAt f + 68 * i) 68
  | none => (s.stackRead (ps.homeAt g.home + 72 * i) 72).take 68

/-- The members of a parcel's head group, as physical parcels. -/
def State.members (s : State) (p : Pid) : List Pid :=
  let ps := s.parcel p
  (List.range ps.hgSize).filterMap (fun i => s.net.place.lookup (ps.hgFirst + i))

/-- Where the summary of a sealed page is to go next: `none` ends it. -/
def KvState.setDue (k : KvState) (x : SummaryDue) (next : Option Nat) : KvState :=
  { k with summaryDue := match next with
    | none => k.summaryDue.filter (fun (y : SummaryDue) => y ≠ x)
    | some n => k.summaryDue.map (fun (y : SummaryDue) => if y = x then { x with next := n } else y) }

/-- A member's part of the KV cache changed. -/
def State.modKv (s : State) (p : Pid) (f : KvState → KvState) : State := s.modParcel p (fun ps => { ps with kv := f ps.kv })

/-- A sealed page's summary sent under a slot to the members that still lack it, in ascending number, while the owner's port takes it
(R314). A member without an entry is a data fault (R272). -/
def State.sendSummary (s : State) (p : Pid) (g : Page) (x : SummaryDue) : Nat → State
  | 0 => s
  | k + 1 =>
    if x.next ≥ (s.parcel p).hgSize then s.modKv p (fun kv => kv.setDue x none)
    else
      let y := { x with next := x.next + 1 }
      let on (t : State) : State := (t.modKv p (fun kv => kv.setDue x (some y.next))).sendSummary p g y k
      match s.net.place.lookup ((s.parcel p).hgFirst + x.next) with
      | none => on s
      | some q =>
        if !s.canSend 1 (.parcel q) (.parcel p) then s
        else on ((s.inject 1 0 0 0 (.parcel q) (.parcel p) (.summary x.slot g.head g.n (pageSummary (s.pageBody p g)))).getD
          (s.fault p .detour))

/-- The summaries that an owner has still to send, as far as its port takes them (R314, R329). -/
def State.sendSummaries (s : State) (p : Pid) : State :=
  (s.parcel p).kv.summaryDue.foldl (fun (t : State) x =>
    match (t.parcel p).kv.page x.slot x.head x.n with
    | none => t.modKv p (fun kv => kv.setDue x none)
    | some g => t.sendSummary p g x ((t.parcel p).hgSize + 1)) s

/-! ### Homes and tables (R307, R318, R324) -/

/-- The bits of KV_CFG that are not reserved (R330). -/
def kvCfgMask : Word := ~~~0x000F000000000000

/-- Bytes of the stack window at KV_BASE: the member's region. -/
def ParcelState.kvRegion (ps : ParcelState) : Nat :=
  (((List.range 16).map (fun i => Sparse.get {} ps.win i)).find? (fun w => w.length > 0 && w.base == ps.kvBase)).elim 0
    Window.length

/-- Units of 55,296 bytes in the region. -/
def ParcelState.kvUnits (ps : ParcelState) : Nat := ps.kvRegion / 55296

/-- Units that the tables take: 13 for each, from the top of the region down. DESIGN CHOICE (log 21): 12 units hold the
4,096 summary entries of a slot and head, one its location vector. -/
def KvState.tableUnits (k : KvState) : Nat := 13 * (k.tables.foldl (fun (m : Nat) t => max m (t.2.2 + 1)) 0)

/-- A free home: one given back first, else the next one below the tables. -/
def ParcelState.takeHome (ps : ParcelState) : Option (Nat × ParcelState) :=
  match ps.kv.freeHomes with
  | h :: t => some (h, { ps with kv := { ps.kv with freeHomes := t } })
  | [] =>
    let h := ps.kv.nextHome
    if h + 1 + ps.kv.tableUnits ≤ ps.kvUnits then some (h, { ps with kv := { ps.kv with nextHome := h + 1 } }) else none

/-- Homes allocated in the region: KV_STAT.HOMES (R330). -/
def KvState.homes (k : KvState) : Nat := k.nextHome - k.freeHomes.length

/-- The place of a slot and head's tables. -/
def KvState.tableOf (k : KvState) (slot head : Nat) : Option Nat :=
  (k.tables.find? (fun t => t.1 == slot && t.2.1 == head)).map (fun t => t.2.2)

/-- Stack address of the summary table with place `i`. -/
def ParcelState.sumAddr (ps : ParcelState) (i : Nat) : Nat := ps.kvBase + 55296 * (ps.kvUnits - 13 * (i + 1))

/-- Stack address of the location vector with place `i`. -/
def ParcelState.locAddr (ps : ParcelState) (i : Nat) : Nat := ps.sumAddr i + 55296 * 12

/-- A place for a slot and head's tables, where there is room (R318). -/
def ParcelState.takeTable (ps : ParcelState) (slot head : Nat) : Option (Nat × ParcelState) :=
  match ps.kv.tableOf slot head with
  | some i => some (i, ps)
  | none =>
    let used := ps.kv.tables.map (fun t => t.2.2)
    let i := ((List.range (used.length + 1)).find? (fun j => !used.contains j)).getD used.length
    let k := { ps.kv with tables := ps.kv.tables ++ [(slot, head, i)] }
    if ps.kv.nextHome + k.tableUnits ≤ ps.kvUnits then some (i, { ps with kv := k }) else none

/-- The place of a slot and head's tables at a member; a place newly taken has every entry 0 (R318). -/
def State.openTable (s : State) (p : Pid) (slot head : Nat) : Option (Nat × State) :=
  ((s.parcel p).takeTable slot head).map (fun x =>
    if ((s.parcel p).kv.tableOf slot head).isSome then (x.1, s)
    else (x.1, (s.setParcel p x.2).zeroRecords (x.2.sumAddr x.1) (13 * 768)))

/-- A summary that a member holds from now on. -/
def KvState.holdSummary (k : KvState) (slot head n : Nat) : KvState :=
  { k with summaries := if k.summaries.contains (slot, head, n) then k.summaries else k.summaries ++ [(slot, head, n)] }

/-- A summary written into the member's table: all of it within the step (log 18). -/
def State.putSummary (s : State) (p : Pid) (slot head n : Nat) (b : List Byte) : State :=
  match s.openTable p slot head with
  | none => s
  | some (i, t) => (t.rawWrite ((t.parcel p).sumAddr i) (144 * n) b).modKv p (fun k => k.holdSummary slot head n)

/-- SUMMARY_RECEIVE: a sealed page's summary is written into the member's copy of the table (R314, R318). -/
def State.summaryReceive (s : State) (p : Pid) (id : Nat) : State :=
  match s.flit id with
  | none => s
  | some f =>
    match f.payload with
    | .summary slot head n b => if !f.atSink (.parcel p) then s else (s.dropFlit id).putSummary p slot head n b
    | _ => s

/-- SUMMARY_RECEIVE. -/
def execSummaryReceive (p : Pid) (flit : Nat) (s : State) : Out := .next (s.summaryReceive p flit)

/-! ### Steps and what a member has of them (R302, R303, R313, R317) -/

/-- The requests of a step in order: index b and slot. -/
def Step.slots (st : Step) : List (Nat × Nat) := (st.rows.map (fun (r : Row) => (r.b, r.slot))).eraseDups

/-- The committed length of a slot at the start of the step. -/
def Step.lenOf (st : Step) (slot : Nat) : Nat := (st.lens.lookup slot).getD 0

/-- Pages that hold rows the step attends (R317). -/
def Step.ns (st : Step) (slot : Nat) : Nat :=
  (st.lenOf slot + (st.rows.filter (fun (r : Row) => r.slot == slot)).length + 255) / 256

/-- The global index of KV head `k` of a head group: those of a group rise with `k` (R302; log 56). -/
def groupHead (hgFirst : Nat) : Nat → Nat
  | 0 => (Config.kvHead hgFirst 0).toNat
  | k + 1 => groupHead hgFirst k + 1 + (Config.kvHead hgFirst (k + 1)).toNat

/-- The global KV heads of the parcel's group, in ascending order. -/
def ParcelState.heads (ps : ParcelState) : List Nat := (List.range ps.kv.nkvh).map (groupHead ps.hgFirst)

/-- Pages from `a` to `b` that this member owns (R303). -/
def ParcelState.owned (ps : ParcelState) (a b : Nat) : List Nat :=
  ((List.range (b + 1 - a)).map (fun i => a + i)).filter (fun n => n % ps.hgSize == ps.hgPos)

/-- The step with number `n`. -/
def State.stepOf (s : State) (n : Nat) : Option Step := s.serve.steps.find? (fun (st : Step) => st.num == n)

/-- Whether a member has laid out its frames for a step (R320); a parcel without frames has nothing to lay out. -/
def KvState.planned (k : KvState) (st : Step) : Bool :=
  k.nframe == 0 || st.slots.all (fun b => k.open_.any (fun (o : OpenSlot) => o.slot == b.2 && o.step == st.num))

/-! ### Commit (R311, R313, R314, R326, R328) -/

/-- A slot's references to pages below `top` dropped at a member: a page without references is freed, with its home and frame (R326). -/
def KvState.dropRefs (k : KvState) (slot top : Nat) : KvState :=
  let ps := k.pages.map (fun (g : Page) => if g.n < top then { g with refs := g.refs.filter (fun r => r ≠ slot) } else g)
  let gone := ps.filter (fun (g : Page) => g.refs.isEmpty)
  { k with
    pages := ps.filter (fun (g : Page) => !g.refs.isEmpty)
    freeHomes := k.freeHomes ++ gone.map Page.home
    evicts := satAdd 16 k.evicts (gone.filter (fun (g : Page) => g.frame.isSome)).length }

/-- A slot dropped at a member: its references, its tables, and what is under way for it. -/
def KvState.dropSlot (k : KvState) (slot : Nat) : KvState :=
  let x := k.dropRefs slot (2 ^ 20)
  { x with
    tables := x.tables.filter (fun t => t.1 ≠ slot)
    summaries := x.summaries.filter (fun t => t.1 ≠ slot)
    summaryDue := x.summaryDue.filter (fun (d : SummaryDue) => d.slot ≠ slot)
    open_ := x.open_.filter (fun (o : OpenSlot) => o.slot ≠ slot)
    halves := x.halves.filter (fun (r : KapRow) => r.slot ≠ slot)
    homeWrites := x.homeWrites.filter (fun (h : HomeCount) => h.slot ≠ slot) }

/-- What falls due when a page is sealed: its summary, under every slot that refers to it. -/
def Page.summaryDue (g : Page) : List SummaryDue := g.refs.map (fun slot => { slot := slot, head := g.head, n := g.n })

/-- A slot's rows of a step committed at a member: rows at or above L' are discarded and counted, pages that L' fills are
sealed (R313, R314). -/
def KvState.commitSlot (k : KvState) (num slot len : Nat) : KvState :=
  let mine := fun (r : StagedRow) => r.step == num && r.slot == slot
  let toSeal := fun (g : Page) => g.refs.contains slot && !g.sealed && decide (256 * (g.n + 1) ≤ len)
  { k with
    rowsDiscarded := satAdd 32 k.rowsDiscarded
      (k.staged.filter (fun r => mine r && decide (len ≤ r.pos))).length
    staged := k.staged.filter (fun r => !mine r)
    seals := satAdd 16 k.seals (k.pages.filter toSeal).length
    pages := k.pages.map (fun (g : Page) => if toSeal g then { g with sealed := true } else g)
    summaryDue := k.summaryDue ++ (k.pages.filter toSeal).flatMap Page.summaryDue
    open_ := k.open_.filter (fun (o : OpenSlot) => !(o.slot == slot && o.step == num))
    homeWrites := k.homeWrites.filter (fun (h : HomeCount) => !(h.step == num && h.slot == slot)) }

/-- The rows of a step discarded without a commit: the step is replayed or abandoned (R235, R313). -/
def KvState.discardStep (k : KvState) (num : Nat) : KvState :=
  { k with
    rowsDiscarded := satAdd 32 k.rowsDiscarded (k.staged.filter (fun (r : StagedRow) => r.step == num)).length
    staged := k.staged.filter (fun (r : StagedRow) => r.step ≠ num)
    open_ := k.open_.filter (fun (o : OpenSlot) => o.step ≠ num)
    halves := k.halves.filter (fun (r : KapRow) => r.step ≠ num)
    homeWrites := k.homeWrites.filter (fun (h : HomeCount) => h.step ≠ num) }

/-- Every member changed. -/
def State.mapKv (s : State) (f : KvState → KvState) : State :=
  { s with parcels := s.parcels.map (fun x => (x.1, { x.2 with kv := f x.2.kv })) }

/-- The page locks that a step holds for a slot released (R547). -/
def State.unlock (s : State) (f : PageLock → Bool) : State :=
  { s with dists := s.dists.map (fun x => (x.1, { x.2 with locks := x.2.locks.filter (fun l => !f l) })) }

/-- Every owner sends what summaries it has to send, as far as its port takes them. -/
def State.sendAllSummaries (s : State) : State :=
  (s.parcels.filter (fun x => !x.2.kv.summaryDue.isEmpty)).foldl (fun (t : State) x => t.sendSummaries (pidOf x.1)) s

/-- What an owner has to send: what was due, and every sealed page whose summary a member of the group lacks (R329). -/
def State.lackingDue (s : State) (p : Pid) : List SummaryDue :=
  let k := (s.parcel p).kv
  k.summaryDue ++ (((k.pages.filter Page.sealed).flatMap Page.summaryDue).filter (fun x =>
    !k.summaryDue.any (fun (y : SummaryDue) => y.slot == x.slot && y.head == x.head && y.n == x.n) &&
    (s.members p).any (fun q => !(s.parcel q).kv.summaries.contains (x.slot, x.head, x.n))))

/-- The summaries that were lost with a parcel due again at every owner (R329). -/
def State.redueSummaries (s : State) : State :=
  { s with parcels := s.parcels.map (fun x => (x.1, { x.2 with kv := { x.2.kv with summaryDue := s.lackingDue (pidOf x.1) } })) }

/-- A slot committed to `len` on the engine: every member commits, then seals and sends the summaries (R313, R314). -/
def State.commitSlot (s : State) (num slot len : Nat) : State :=
  let s2 := (s.mapKv (fun k => k.commitSlot num slot len)).sendAllSummaries
  (({ s2 with serve := { s2.serve with
    slots := Sparse.put s2.serve.slots slot { Sparse.get ({} : Slot) s2.serve.slots slot with len := len } } }).unlock
    (fun l => l.slot == slot && l.step == num))

/-- Slot `k`. -/
def State.slot (s : State) (k : Nat) : Slot := Sparse.get {} s.serve.slots k

/-- The state with slot `k` as given. -/
def State.setSlot (s : State) (k : Nat) (x : Slot) : State :=
  { s with serve := { s.serve with slots := Sparse.put s.serve.slots k x } }

/-- The summaries of a slot's full pages below `p` positions taken over by another slot at every member. -/
def State.shareSummaries (s : State) (slot new p : Nat) : State :=
  s.parcels.foldl (fun (t : State) x =>
    (x.2.kv.summaries.filter (fun e => e.1 == slot && decide (256 * (e.2.2 + 1) ≤ p))).foldl (fun (u : State) e =>
      let q := pidOf x.1
      match (u.parcel q).kv.tableOf slot e.2.1 with
      | none => u
      | some i => u.putSummary q new e.2.1 e.2.2 (u.rawRead ((u.parcel q).sumAddr i) (144 * e.2.2) 144)) t) s

/-- A slot referred to a slot's pages below `p` positions, with the summaries of the full ones, at every member (R326). -/
def State.sharePages (s : State) (slot new p : Nat) : State :=
  (s.mapKv (fun k => { k with pages := k.pages.map (fun (g : Page) =>
    if g.refs.contains slot && decide (256 * g.n < p) then { g with refs := g.refs ++ [new] } else g) })).shareSummaries slot new p

/-- The prefixes that a list of new lengths pins: the entry of a slot that is not in the step, behind that of the slot whose pages it takes
(log 91). Answers the slot pinned, the prefix's slot and its length. -/
def pinsOf (st : Step) (lens : List (Nat × Nat)) : List (Nat × Nat × Nat) :=
  (List.zip lens lens.tail).filterMap (fun x =>
    if st.slots.any (fun b => b.2 == x.2.1) then none else some (x.1.1, x.2.1, x.2.2))

/-- The prefixes that another owner's commit pins take their references at this engine's members (R326). -/
def State.takePins (s : State) (pins : List (Nat × Nat × Nat)) : State :=
  pins.foldl (fun (t : State) x =>
    ((t.mapKv (fun k => k.dropSlot x.2.1)).setSlot x.2.1 { used := true, len := x.2.2 }).sharePages x.1 x.2.1 x.2.2) s

/-- The new lengths of a step's slots applied (R313). -/
def State.applyLens (s : State) (num : Nat) (lens : List (Nat × Nat)) : State :=
  lens.foldl (fun (t : State) x => t.commitSlot num x.1 x.2) s

/-- A step that is over leaves the engine. -/
def State.endStep (s : State) (num : Nat) : State :=
  { s with serve := { s.serve with steps := s.serve.steps.filter (fun (st : Step) => st.num ≠ num) } }

/-- COMMIT_APPLY: an engine that received COMMIT applies the new lengths; the step is over (R313, R406). -/
def State.commitApply (s : State) (num : Nat) : State :=
  match s.stepOf num with
  | none => s
  | some st =>
    if !st.committed || st.owner = s.model.ordinal then s
    else
      let lens := st.outcomes.map (fun (o : Outcome) => (o.slot, o.len))
      ((s.takePins (pinsOf st lens)).applyLens num lens).endStep num

/-- COMMIT_APPLY. -/
def execCommitApply (step : BitVec 32) (s : State) : Out := .next (s.commitApply step.toNat)

end Sys2Proof.Machine
end

