-- ==== Sys2Proof/Machine/Output.lean ====
section
/-!
DEFINITION. Request rings, output entries, text, and the completion of requests (13 R390, R392, R397 to R400, R409;
14 R443 to R446).
-/
namespace Sys2Proof.Machine

/-! ### Rings and connections (R392, R443, R446) -/

/-- Stack address of ring `r`. -/
def ringBase (r : Nat) : Nat := 0x80000400 + r * 0x4800000

/-- `n` bytes of ring `r` from ring byte `o` on. -/
def State.ringRead (s : State) (r o n : Nat) : List Byte := s.rawRead (ringBase r) o n

/-- Bytes written to ring `r` from ring byte `o` on. -/
def State.ringWrite (s : State) (r o : Nat) (bs : List Byte) : State := s.rawWrite (ringBase r) o bs

/-- A 64-bit counter of the control block: REQ_HEAD 0, REQ_TAIL 1, CAN_HEAD 2, CAN_TAIL 3 (R393). -/
def State.ringCtr (s : State) (r i : Nat) : Nat := leNat (s.ringRead r (8 * i) 8)

/-- The connection of a ring. -/
def State.conn (s : State) (r : Nat) : Conn := Sparse.get {} s.fab.conns r

/-- The state with a ring's connection as given. -/
def State.setConn (s : State) (r : Nat) (c : Conn) : State :=
  { s with fab := { s.fab with conns := Sparse.put s.fab.conns r c } }

/-- Port `k`. -/
def State.port (s : State) (k : Nat) : Port := Sparse.get {} s.fab.ports k

/-- The state with port `k` as given. -/
def State.setPort (s : State) (k : Nat) (x : Port) : State :=
  { s with fab := { s.fab with ports := Sparse.put s.fab.ports k x } }

/-- Whether engine link `l` is up (R424, R501). -/
def State.linkLive (s : State) (l : Nat) : Bool :=
  s.fab.ok && l < 128 && (s.port (l / 8)).linkUp.getLsbD (l % 8) && !(s.port (l / 8)).oscFail

/-- Whether frames leave on link `l` now: it is up and its port is not held by a remote pause. -/
def State.linkOpen (s : State) (l : Nat) : Bool := s.linkLive l && !(s.port (l / 8)).paused

/-- An IPv6 address under the fabric's PREFIX (R428). -/
def State.underPrefix (s : State) (n : Nat) : BitVec 128 := s.fab.ipPrefix ++ BitVec.ofNat 32 n

/-- The ends of a ring's packets: the engine address PREFIX, 0x8000_0000 + E on this side (R428). -/
def State.rcAddr (s : State) (r : Nat) : RcAddr :=
  { src := s.underPrefix (0x80000000 + s.fab.engineId), dst := (s.conn r).clientIp, qp := (s.conn r).clientQpn }

/-- An RDMA write on a ring's connection: it leaves, or waits for an open link; it stays with the connection until the
client acknowledges it (R398, R446). -/
def State.rcWrite (s : State) (r addr rkey : Nat) (bs : List Byte) : State :=
  let c := s.conn r
  if !c.bound || c.failed then s
  else
    let go := s.linkOpen c.link
    let s1 := s.setConn r { c with
      psnOut := (c.psnOut + 1) % 2 ^ 24
      unacked := c.unacked ++ [{ psn := c.psnOut, addr := addr, rkey := rkey, bytes := bs, sent := go }] }
    if go then s1.emit (.rdmaWrite r (s.rcAddr r) c.psnOut addr rkey bs) else s1

/-! ### Output entries (R397) -/

/-- Where a request's output goes. -/
structure OutTo where
  ring : Nat
  entry : Nat
  id : Word
  addr : Nat
  rkey : Nat
  entries : Nat
deriving DecidableEq, Repr

/-- A request's output ring. -/
def Request.to (r : Request) : OutTo :=
  { ring := r.ring, entry := r.entry, id := r.id, addr := r.outAddr, rkey := r.outRkey, entries := r.outEntries }

/-- A completed request's output ring. -/
def Finished.to (r : Finished) : OutTo :=
  { ring := r.ring, entry := r.entry, id := r.id, addr := r.outAddr, rkey := r.outRkey, entries := r.outEntries }

/-- The 64 bytes of an output entry: `w8`, TYPE, bytes 13 to 15, `body` in bytes 16 to 55, STEP and SEQ. -/
def outEntry (id : Word) (w8 typ b13 b14 b15 : Nat) (body : List Byte) (step seq : Nat) : List Byte :=
  leBytes id.toNat 8 ++ leBytes w8 4 ++ leBytes typ 1 ++ leBytes b13 1 ++ leBytes b14 1 ++ leBytes b15 1 ++
    (body ++ List.replicate 40 0).take 40 ++ leBytes step 4 ++ leBytes seq 4

/-- Entry `seq` written to the output ring (R397). -/
def State.putEntry (s : State) (t : OutTo) (seq : Nat) (bs : List Byte) : State :=
  s.rcWrite t.ring (t.addr + 64 * (seq % t.entries)) t.rkey bs

/-- A list cut into pieces of at most `n`. -/
def pieces {α : Type} (n : Nat) : Nat → List α → List (List α)
  | 0, _ => []
  | k + 1, l => if l.isEmpty then [] else l.take n :: pieces n k (l.drop n)

/-- The TYPE 1 entries of delivered tokens, at most five in each. -/
def State.putTokens (s : State) (t : OutTo) (seq first step : Nat) (toks : List Nat) : State × Nat :=
  (pieces 5 toks.length toks).foldl (fun (a : State × Nat) p =>
    let k := a.2 - seq
    (a.1.putEntry t a.2 (outEntry t.id (first + 5 * k) 1 p.length 0 0 (p.flatMap (fun x => leBytes x 4)) step a.2),
      a.2 + 1)) (s, seq)

/-- TYPE 2 entries of text, at most 40 bytes in each. -/
def State.putText (s : State) (t : OutTo) (seq step : Nat) (bs : List Byte) : State × Nat :=
  (pieces 40 bs.length bs).foldl (fun (a : State × Nat) p =>
    (a.1.putEntry t a.2 (outEntry t.id 0 2 p.length 0 0 p step a.2), a.2 + 1)) (s, seq)

/-! ### Text (R399, R400) -/

/-- The vocabulary entry of a token: pool offset, length, KIND. -/
def State.vocabEntry (s : State) (tok : Nat) : Nat × Nat × Nat :=
  let b := s.rawRead s.model.vocab.addr (96 + 8 * tok) 8
  (leNat (b.take 4), leNat ((b.drop 4).take 2), leNat ((b.drop 6).take 1))

/-- The bytes a token adds to the byte buffer. -/
def State.tokenText (s : State) (tok : Nat) : List Byte :=
  let e := s.vocabEntry tok
  if e.2.2 = 2 then [] else s.rawRead s.model.vocab.addr (96 + 8 * s.model.vocab.nvocab + e.1) e.2.1

/-- Whether a byte continues a UTF-8 character. -/
def utf8Cont (lo hi : Nat) (b : Option Byte) : Bool := b.any (fun x => lo ≤ x.toNat && x.toNat ≤ hi)

/-- Length of the well-formed UTF-8 character that begins a list; 0 where none does. -/
def utf8Len (bs : List Byte) : Nat :=
  let b (i : Nat) : Option Byte := bs[i]?
  let c (i : Nat) : Bool := utf8Cont 0x80 0xBF (b i)
  match bs.head? with
  | none => 0
  | some x =>
    let n := x.toNat
    if n < 0x80 then 1
    else if 0xC2 ≤ n && n ≤ 0xDF then (if c 1 then 2 else 0)
    else if 0xE0 ≤ n && n ≤ 0xEF then
      let ok := if n = 0xE0 then utf8Cont 0xA0 0xBF (b 1) else if n = 0xED then utf8Cont 0x80 0x9F (b 1) else c 1
      if ok && c 2 then 3 else 0
    else if 0xF0 ≤ n && n ≤ 0xF4 then
      let ok := if n = 0xF0 then utf8Cont 0x90 0xBF (b 1) else if n = 0xF4 then utf8Cont 0x80 0x8F (b 1) else c 1
      if ok && c 2 && c 3 then 4 else 0
    else 0

/-- U+FFFD. -/
def replacement : List Byte := [0xEF, 0xBF, 0xBD]

/-- What is emitted of a buffer, and what stays: the longest prefix that ends on a complete character, with each run of
bytes that belong to no character as one U+FFFD. DEDUCED (log 22). -/
def textSplit : Nat → List Byte → List Byte → List Byte → List Byte × List Byte
  | 0, out, bad, rest => (out, bad ++ rest)
  | n + 1, out, bad, rest =>
    match rest with
    | [] => (out, bad)
    | x :: xs =>
      let k := utf8Len (x :: xs)
      if k = 0 then textSplit n out (bad ++ [x]) xs
      else textSplit n (out ++ (if bad.isEmpty then [] else replacement) ++ (x :: xs).take k) [] ((x :: xs).drop k)

/-- A text buffer split. -/
def emitText (buf : List Byte) : List Byte × List Byte := textSplit (buf.length + 1) [] [] buf

/-! ### Slots (R304, R326, R328, R418) -/

/-- A slot freed: its references drop, its generation rises (R418). -/
def State.freeSlot (s : State) (slot : Nat) : State :=
  let x := Sparse.get ({} : Slot) s.serve.slots slot
  let s1 := { s with serve := { s.serve with
    slots := Sparse.put s.serve.slots slot { used := false, len := 0, gen := (x.gen + 1) % 65536, from_ := none } } }
  (s1.mapKv (fun k => k.dropSlot slot)).unlock (fun l => l.slot == slot)

/-! ### Completion (R390, R397, R399, R409) -/

/-- The body of a completion entry: PREFIX, END_TIME, ACCEPTED, FIRST_TIME. -/
def completionBody (handle : Word) (endTime accepted first : Nat) : List Byte :=
  leBytes handle.toNat 8 ++ leBytes endTime 8 ++ leBytes accepted 4 ++ leBytes 0 4 ++ leBytes first 8

/-- A completion entry written to the output ring and to the status copy, and the request remembered for late cancels. -/
def State.putCompletion (s : State) (t : OutTo) (seq delivered status reason step : Nat) (body : List Byte) : State :=
  let e := outEntry t.id delivered 3 status (if status = stIllegal then s.core.st.code else 0)
    (if status = stComplete then reason else 0) body step seq
  let s1 := (s.putEntry t seq e).ringWrite t.ring (0x50000 + 64 * (t.entry % 1024)) e
  { s1 with serve := { s1.serve with finished := s1.serve.finished ++ [{
    ring := t.ring
    entry := t.entry
    id := t.id
    outAddr := t.addr
    outEntries := t.entries
    outRkey := t.rkey
    seq := seq + 1 }] } }

/-- An admitted request completed: what is left of its text, then the completion; its slot is freed. -/
def State.finish (s : State) (r : Request) (status reason endTime step : Nat) : State :=
  let text := r.flags % 2 = 1
  let a := if text && !r.text.isEmpty then s.putText r.to r.seq step replacement else (s, r.seq)
  let s1 := a.1.putCompletion r.to a.2 r.out.length status reason step
    (completionBody r.prefixHandle endTime r.accepted r.firstTime)
  ({ s1 with serve := { s1.serve with
    reqs := s1.serve.reqs.filter (fun (q : Request) => !(q.ring == r.ring && q.entry == r.entry)) } }).freeSlot r.slot

/-- The last admitted request of a drain has completed (R385). -/
def State.drainEnd (s : State) : State :=
  if s.core.st = .draining && s.serve.reqs.isEmpty then
    { s with core := { s.core with st := .loaded, drainMs := none } }
  else s

/-- Every request in flight completed with a status; nothing more is committed (R390). -/
def State.revokeAll (s : State) (status : Nat) : State :=
  let s1 := s.serve.reqs.foldl (fun (t : State) r =>
    t.finish r status 0 t.time.ns (Config.noStep t.serve.finished.length)) s
  let s2 := s1.serve.steps.foldl (fun (t : State) st => t.mapKv (fun k => k.discardStep st.num)) s1
  { s2 with serve := { s2.serve with steps := [] } }

/-- The engine enters FAULT with a cause: requests complete with it, and the newest fault log entries are copied to flash
(R385, R390, R568). -/
def State.enterFault (s : State) (cause : Nat) : State :=
  if s.core.st = .off || s.core.st = .fault then s
  else
    let s1 := s.revokeAll cause
    { s1 with
      core := { s1.core with st := .fault, cause := cause, drainMs := none }
      boot := if s.core.st = EngSt.boot then { s1.boot with cause := cause } else s1.boot }.copyLog

end Sys2Proof.Machine
end

