-- ==== Sys2Proof/Machine/Host.lean ====
section
/-!
DEFINITION. Host commands: authentication, legality, log record, reply (01 R35, R40; 13 R387, R388; 20 R576, R577;
22 R615 to R620).
-/
namespace Sys2Proof.Machine

/-- A command as it was reassembled: where it came from, its opcode and operand bytes, the message before
the trailer, the trailer, and whether a write of the counter floor would succeed. -/
structure CmdIn where
  xid : BitVec 64
  src : Nat
  v1 : Bool
  onMgmt : Bool
  opcode : Nat
  operands : List Byte
  raw : List Byte
  ctr : BitVec 64
  rsv : BitVec 64
  tag : BitVec 256
  flashOk : Bool := true
deriving DecidableEq, Repr

/-- A well-formed message before its trailer (R616). -/
def cmdBytes (opcode : Nat) (operands : List Byte) : List Byte :=
  leBytes opcode 2 ++ leBytes 1 1 ++ leBytes 0 1 ++ leBytes operands.length 4 ++ leBytes 0 8 ++ operands

/-- A command from the header that its row carries. -/
def cmdOf (m : MgmtHdr) (opcode : Nat) (operands : List Byte) : CmdIn :=
  { xid := m.xid, src := m.src, v1 := m.v1, onMgmt := m.onMgmt, opcode := opcode, operands := operands
    raw := cmdBytes opcode operands, ctr := m.ctr, rsv := m.rsv, tag := m.tag, flashOk := m.flashOk }

/-- The command of a row of the table, as the host lays it out. -/
def cmdFor (i : Instr) : CmdIn :=
  match hostEncode i with
  | some x => cmdOf x.1 x.2.1 x.2.2
  | none => cmdOf { xid := 0, src := 0, v1 := false, onMgmt := false, ctr := 0, rsv := 0, tag := 0 } 0 []

/-- What a reply says. -/
structure Reply where
  status : Nat
  unit : Nat := 0xFF
  results : List Byte := []
deriving DecidableEq, Repr

/-- What the execution of a command answers: the state with its reply, the state with the reply to come later, a command
not legal in the present state (with the UNIT_STATE of its reply), or one that is not well formed. -/
inductive CmdOut where
  | done (s : State) (r : Reply)
  | later (s : State)
  | illegal (unit : Nat)
  | malformed

/-- Whether a command carries a trailer (R576): all but QUOTE, MGMT_KEY, and OWNER_SET while no owner key is held. -/
def State.needsTrailer (s : State) (opcode : Nat) : Bool :=
  !(opcode == 0x000C || opcode == 0x0010 || (opcode == 0x000F && s.nv.owner.isNone))

/-- The address of a command's reply. -/
def State.replyAddr (s : State) (c : CmdIn) : ReplyTo :=
  { xid := c.xid, src := c.src, v1 := c.v1, onMgmt := c.onMgmt
    ctr := if s.needsTrailer c.opcode then some c.ctr else none }

/-- A reply's bytes. -/
def State.replyBytes (s : State) (t : ReplyTo) (opcode : Nat) (r : Reply) : List Byte :=
  s.mgmtBytes (0x8000 + opcode) r.status r.unit r.results (t.ctr.map BitVec.toNat)

/-- A reply with its trailer under management key `k`, sent, and kept with the command's log record (R40). -/
def State.replyUnder (s : State) (k : Option (BitVec 256)) (t : ReplyTo) (opcode : Nat) (r : Reply) : State :=
  let b := ({ s with nv := { s.nv with mkey := k } }).replyBytes t opcode r
  let s1 := s.emit (.mgmt t.src t.v1 t.onMgmt t.xid b)
  { s1 with core := { s1.core with cmdLog := s1.core.cmdLog.map (fun (x : CmdRec) =>
    if some x.ctr = t.ctr then { x with reply := b } else x) } }

/-- A reply under the management key in force (R577). -/
def State.reply (s : State) (t : ReplyTo) (opcode : Nat) (r : Reply) : State := s.replyUnder s.nv.mkey t opcode r

/-- The TAG a command must carry (R576). -/
def State.cmdTag (s : State) (k : BitVec 256) (c : CmdIn) : List Byte :=
  hmacSm3 (leBytes k.toNat 32) (leBytes s.nv.serial.toNat 8 ++ leBytes c.ctr.toNat 8 ++ c.raw)

/-- Whether the TAG verifies under the management key. -/
def State.tagOk (s : State) (c : CmdIn) : Bool := s.nv.mkey.any (fun k => s.cmdTag k c == leBytes c.tag.toNat 32)

/-- A failure at step 1 or 2: counted, logged, answered KEY_BAD. -/
def State.keyBad (s : State) (c : CmdIn) : State :=
  let s1 := { s with sec := { s.sec with authFail := satAdd 32 s.sec.authFail 1 } }
  (s1.writeLog { code := 51, status := stKey }).reply (s.replyAddr c) c.opcode { status := stKey }

/-- A well-formed command that passed its checks, with the log record that the registry writes before it takes effect
(R35): the deputy holds it, or while DEP_VALID = 0 the checkpoint region of the stacks (R36). DESIGN CHOICE (log 24): both lie within the
row. -/
def State.logCommand (s : State) (c : CmdIn) : State :=
  let s1 := { s with core := { s.core with
    logNext := s.core.logNext + 1
    cmdLog := if s.needsTrailer c.opcode then s.core.cmdLog ++ [{ ctr := c.ctr, tag := c.tag, reply := [] }]
      else s.core.cmdLog } }
  if s.core.depValid then s1 else s1.ckptWrite s.core.logNext

/-- The command executed after its authentication: MALFORMED and ILLEGAL_IN_STATE leave no record and no effect (R388). The trailer of a
reply is under the key that authenticated the command, which OWNER_SET may have erased (R577). -/
def State.execute (s : State) (c : CmdIn) (op : State → CmdOut) : State :=
  let t := s.replyAddr c
  if s.needsTrailer c.opcode && c.rsv ≠ 0 then s.reply t c.opcode { status := stMalformed }
  else match op (s.logCommand c) with
    | .done s1 r => s1.replyUnder s.nv.mkey t c.opcode r
    | .later s1 => s1
    | .illegal u =>
      ({ s with serve := { s.serve with illegal := satAdd 32 s.serve.illegal 1 } }).reply t c.opcode
        { status := stIllegal, unit := u }
    | .malformed => s.reply t c.opcode { status := stMalformed }

/-- The least multiple of 65,536 above a counter (R593). -/
def floorAbove (ctr : Nat) : Nat := 65536 * (ctr / 65536 + 1)

/-- A command past step 2: the counter is raised, the counter floor kept above it, and its source is where messages of the
engine's own go (R576, R593, R619). -/
def State.accepted (s : State) (c : CmdIn) : State :=
  { s with
    nv := if s.nv.floor ≤ c.ctr.toNat then { s.nv with floor := floorAbove c.ctr.toNat } else s.nv
    sec := { s.sec with lastCtr := c.ctr.toNat }
    mgmt := { s.mgmt with last := some { src := c.src, v1 := c.v1, onMgmt := c.onMgmt } } }

/-- Whether the counter floor must be written before a command takes effect, and the write fails (R593). -/
def State.floorFails (s : State) (c : CmdIn) : Bool := decide (s.nv.floor ≤ c.ctr.toNat) && !c.flashOk

/-- A command refused because its floor write failed: KEY_BAD, FLASH_FAIL, and the last accepted counter stays (R593). -/
def State.floorBad (s : State) (c : CmdIn) : State :=
  ({ s with cal := { s.cal with flashFail := true } }).reply (s.replyAddr c) c.opcode { status := stKey }

/-- Whether a registry answers commands: not before election, and not in a FAULT that has left it without its warden or with fewer
than two (R387, R600). -/
def State.answers (s : State) : Bool :=
  s.core.epoch ≠ 0 && (s.core.st ≠ .fault ||
    ((s.dist s.core.registry).live && ((List.range 60).filter (fun d => (s.dist d).live)).length ≥ 2))

/-- A host command (R576, R593, R620). Without a registry nothing happens (R387). -/
def State.hostCmd (s : State) (c : CmdIn) (op : State → CmdOut) : State :=
  if !s.answers then s
  else if !s.needsTrailer c.opcode then s.execute c op
  else if !s.tagOk c then s.keyBad c
  else if c.ctr.toNat > s.sec.lastCtr then if s.floorFails c then s.floorBad c else (s.accepted c).execute c op
  else match s.core.cmdLog.find? (fun (x : CmdRec) => x.ctr == c.ctr && x.tag == c.tag) with
    | some x =>
      let s1 := { s with mgmt := { s.mgmt with last := some { src := c.src, v1 := c.v1, onMgmt := c.onMgmt } } }
      if x.reply.isEmpty then s1 else s1.emit (.mgmt c.src c.v1 c.onMgmt c.xid x.reply)
    | none => s.keyBad c

/-- A reply OK. -/
def CmdOut.ok (s : State) : CmdOut := .done s { status := stOk }

/-- A reply with a status. -/
def CmdOut.say (s : State) (status : Nat) : CmdOut := .done s { status := status }

/-- A command checked before it runs: first whether it is well formed, then whether it is legal (R576). -/
def checked (wellFormed legal : Bool) (k : State → CmdOut) (s : State) : CmdOut :=
  if !wellFormed then .malformed else if !legal then .illegal 0xFF else k s

/-- Whether the engine is in one of some states (R387). -/
def State.inState (s : State) (l : List EngSt) : Bool := l.contains s.core.st

end Sys2Proof.Machine
end

