-- ==== Sys2Proof/Machine/Plan.lean ====
section
/-!
DEFINITION. The placement of the signal plan on the links, and the row FRAME_BOUNDARY (08 R247 to R250; 09 R284, R296 to R298).
-/
namespace Sys2Proof.Machine

/-- The links of a route with the distance d_k of each from the source: 1 for a parcel link, 3 for a ring-road link (R247). A
link is named by 4 times its router's number plus its output. -/
def routeLinks : Nat → List TreeHop → List (Nat × Nat)
  | _, [] => []
  | d, h :: hs =>
    if h.out ≥ 4 then []
    else
      let r := pidOf h.r
      let far := match neighbour r h.out with | some (q, _) => decide (q.d ≠ r.d) | none => false
      (4 * h.r + h.out, d) :: routeLinks (d + (if far then 3 else 1)) hs

/-- The cycles of a frame that `n` slots from cycle `t` on take. -/
def runMask (t n : Nat) : BitVec 4096 := (BitVec.ofNat 4096 (2 ^ n - 1)).rotateLeft (t % 4096)

/-- Reservations of every link. -/
abbrev LinkMap := Sparse (BitVec 4096)

/-- Whether a run delayed by `d` meets no reservation. -/
def runFree (m : LinkMap) (links : List (Nat × Nat)) (t n d : Nat) : Bool :=
  links.all (fun l => Sparse.get 0 m l.1 &&& runMask (t + d + l.2) n == 0)

/-- A run reserved with delay `d`. -/
def reserveRun (m : LinkMap) (links : List (Nat × Nat)) (t n d : Nat) : LinkMap :=
  links.foldl (fun (a : LinkMap) l => Sparse.put a l.1 (Sparse.get 0 a l.1 ||| runMask (t + d + l.2) n)) m

/-- The runs of a flow placed one after another, each with the least delay that is free; none where one has none (R250).
`off` is the source's OFFSET: DEDUCED (log 31), the runs lie in the source's local frame. -/
def placeRuns (links : List (Nat × Nat)) (off : Nat) : LinkMap → List (Nat × Nat) → Option (LinkMap × List Nat)
  | m, [] => some (m, [])
  | m, (t, n) :: rs =>
    match (List.range (4097 - (t + n))).find? (fun d => runFree m links (off + t) n d) with
    | none => none
    | some d => (placeRuns links off (reserveRun m links (off + t) n d) rs).map (fun r => (r.1, d :: r.2))

/-- The links of a flow under the present placement; none where an endpoint is not placed or has no route. A flow within one parcel takes
no link. -/
def State.flowLinks (s : State) (f : PlanFlow) : Option (List (Nat × Nat)) :=
  match s.net.place.lookup f.src, s.net.place.lookup f.dst with
  | some a, some b => if (s.routeOf a b).isEmpty then none else some (routeLinks 0 (s.routeOf a b))
  | _, _ => none

/-- Whether a flow has reservations: it is not demoted, or is placed again. -/
def PlanFlow.placed (f : PlanFlow) : Bool := !f.demoted || f.from_.isSome

/-- A flow demoted at once (R298). -/
def PlanFlow.demote (f : PlanFlow) : PlanFlow := { f with demoted := true, from_ := none }

/-- A flow at the start of frame `n`: one placed again resumes VC0 with its new reservations (R298). -/
def PlanFlow.atFrame (f : PlanFlow) (n : Nat) : PlanFlow :=
  if f.from_.any (fun k => decide (k ≤ n)) then { f with demoted := false, from_ := none } else f

/-- The reservations that the flows which are placed hold. -/
def State.keptMap (s : State) : LinkMap :=
  (s.net.plan.filter PlanFlow.placed).foldl (fun (m : LinkMap) f =>
    (f.runs.zip f.slips).foldl (fun (a : LinkMap) r =>
      reserveRun a ((s.flowLinks f).getD []) (s.offsetOf f.src + r.1.1) r.1.2 r.2) m) []

/-- The demoted flows placed again in ascending entry order against the reservations that remain (R250, R298): the plan and the
reservations of every link. They hold from the next frame on (R296). -/
def State.placeFlows (s : State) : List PlanFlow → LinkMap → List PlanFlow × LinkMap
  | [], m => ([], m)
  | f :: fs, m =>
    if f.placed then
      let r := s.placeFlows fs m
      (f :: r.1, r.2)
    else
      match (s.flowLinks f).bind (fun links => placeRuns links (s.offsetOf f.src) m f.runs) with
      | some (m', ds) =>
        let r := s.placeFlows fs m'
        ({ f with from_ := some (s.clk.frame + 1), slips := ds } :: r.1, r.2)
      | none =>
        let r := s.placeFlows fs m
        ({ f with slips := [] } :: r.1, r.2)

/-- The longest run of consecutive reserved cycles of a frame (R284). -/
def longestRun (m : BitVec 4096) : Nat :=
  ((List.range 8192).foldl (fun (a : Nat × Nat) i =>
    if m.getLsbD (i % 4096) then (a.1 + 1, max a.2 (a.1 + 1)) else (0, a.2)) (0, 0)).2 |> min 4096

/-- The largest slip of a flow that is placed. -/
def PlanFlow.slip (f : PlanFlow) : Nat := f.slips.foldl max 0

/-- The maps of every link written into the second map of its router. -/
def State.writeMaps (s : State) (m : LinkMap) : State :=
  { s with parcels := s.parcels.map (fun x => (x.1, { x.2 with rtr := { x.2.rtr with
    resvNext := some (s.clk.frame + 1, ((List.range 4).map (fun o => (o, Sparse.get 0 m (4 * x.1 + o)))).filter (fun e => e.2 ≠ 0)) } })) }

/-- The plan placed: flows, second maps, largest slip and G_k. -/
def State.placePlan (s : State) : State :=
  let r := s.placeFlows s.net.plan s.keptMap
  let keys := (r.2.map (fun l => l.1 / 4)).eraseDups
  let s1 := keys.foldl (fun (t : State) k => t.modParcel (pidOf k) id) s
  let s2 := s1.writeMaps r.2
  { s2 with net := { s2.net with
    plan := r.1
    maxSlip := (r.1.map PlanFlow.slip).foldl max 0
    maxG := (r.2.map (fun l => longestRun l.2)).foldl max 0 } }

/-! ### The plan frame (R296, R297) -/

/-- A router at the start of frame `n`: it switches to its second map where that holds from `n` on. -/
def Router.atFrame (x : Router) (n : Nat) : Router :=
  match x.resvNext with
  | some m => if m.1 ≤ n then { x with resv := m.2, resvNext := none } else x
  | none => x

/-- FRAME_BOUNDARY: at the first cycle of a frame the routers whose second map is written for it switch to it, and the flows placed in it
resume VC0; at no other time does a map change (R297, R298). -/
def execFrameBoundary (s : State) : Out :=
  .next (if s.clk.fclk % 4096 ≠ 0 then s
    else { s with
      parcels := s.parcels.map (fun x => (x.1, { x.2 with rtr := x.2.rtr.atFrame s.clk.frame }))
      net := { s.net with plan := s.net.plan.map (fun (f : PlanFlow) => f.atFrame s.clk.frame) } })

end Sys2Proof.Machine
end

