-- ==== Sys2Proof/Machine/Recover.lean ====
section
/-!
DEFINITION. Holes and detours, loss of power, bollards, and what calls for a replay (09 R262, R272 to R276, R298; 15 R470;
16 R490, R491, R498; 18 R537; 19 R543 to R548, R560; 01 R24, R29).
-/
namespace Sys2Proof.Machine

/-! ### Districts and their neighbours (R20, R275, R498) -/

/-- The districts that are holes. -/
def State.holeList (s : State) : List Nat := (List.range 60).filter (fun d => !s.live d)

/-- A number with bit `k` as given. -/
def natBit (n k : Nat) (b : Bool) : Nat := if n.testBit k == b then n else if b then n + 2 ^ k else n - 2 ^ k

/-- The neighbouring routers' ports toward a district marked DEAD, or no longer; what waits for a DEAD port is dropped (R275, R276). -/
def State.markDead (s : State) (d : Nat) (dead : Bool) : State :=
  (distNbrs d).foldl (fun (t : State) q =>
    (List.range 12).foldl (fun (u : State) k =>
      let r := pidOf (144 * q.2 + edgeParcel (opposite q.1) k)
      let v := u.modRtr r (fun x => { x with dead := BitVec.ofNat 4 (natBit x.dead.toNat (newsBit (opposite q.1)) dead) })
      if dead then v.dropDead r else v) t) s

/-- The coupling inputs from a district's node masked at its neighbours, or no longer (R498, R499). -/
def State.maskNode (s : State) (d : Nat) (m : Bool) : State :=
  (distNbrs d).foldl (fun (t : State) q =>
    t.modDist q.2 (fun x => { x with mask := natBit x.mask (newsBit (opposite q.1)) m })) s

/-- The anchor (R491): 0 where no district is live. -/
def State.anchorNow (s : State) : Nat :=
  (([26, 27, 34, 35] ++ List.range 60).find? s.live).getD 0

/-- The anchor chosen anew. -/
def State.pickAnchor (s : State) : State := { s with clk := { s.clk with anchor := s.anchorNow } }

/-! ### Detour tables (R273, R274, R298, R300) -/

/-- The routers a flow's route passes, as parcel keys. -/
def State.routeKeys (s : State) (a b : Nat) : List Nat :=
  match s.net.place.lookup a, s.net.place.lookup b with
  | some x, some y => (s.routeOf x y).map TreeHop.r
  | _, _ => []

/-- Flows whose route meets a district of `ds`, or has an endpoint there, are demoted at once (R298). -/
def State.demoteFlows (s : State) (ds : List Nat) : State :=
  { s with net := { s.net with plan := s.net.plan.map (fun (f : PlanFlow) =>
    if (s.routeKeys f.src f.dst).any (fun k => ds.contains (k / 144)) then f.demote else f) } }

/-- The hole set as the registry makes it: the holes, and the live districts that R273 adds until every pair is reachable. -/
def fullHoles (holes : List Nat) : List Nat := holes ++ closeHoles 60 holes

/-- The table of district `d` for hole `x` in a single-fault set made for the holes `base` (R274). -/
def singleFault (base : List Nat) (d x : Nat) : Sparse (BitVec 32) := detourTable (fullHoles (x :: base)) d

/-- The table that a warden installs for a hole set: the one of its single-fault set where one more hole has come to the holes that set was
made for, else one that the registry computes (R274, R275). -/
def tableFor (base holes : List Nat) (d : Nat) : Sparse (BitVec 32) :=
  match holes.filter (fun x => !base.contains x), base.all (fun x => holes.contains x) with
  | [x], true => singleFault base d x
  | _, _ => detourTable holes d

/-- Every district's table for a hole set installed, and the wardens' single-fault sets reloaded (R274). DESIGN CHOICE (log 41): a set
is held as the holes it was made for, and its reload, due within 50 ms, is complete with the tables. -/
def State.installTables (s : State) (holes : List Nat) : State :=
  ((List.range 60).filter (fun d => s.live d)).foldl (fun (t : State) d =>
    t.modDist d (fun x => { x with detour := tableFor x.faultBase holes d, faultBase := holes })) s

/-- New tables after the hole set changed: flows that meet a changed district, on their old route or on their new one, are demoted, trees
are due at the next pass boundary, the anchor is chosen anew. -/
def State.recomputeHoles (s : State) : State :=
  let h := s.holeList
  let full := fullHoles h
  let changed := (List.range 60).filter (fun d => s.net.holes.contains d != full.contains d)
  let s1 := ((s.demoteFlows changed).installTables full).demoteFlows changed
  ({ s1 with net := { s1.net with holes := full, unreach := full.length - h.length, treesDue := true } }).pickAnchor

/-! ### Placement (R277, R472) -/

/-- The logical parcel that a physical one hosts. -/
def State.logicalAt (s : State) (p : Pid) : Option Nat := (s.net.place.find? (fun x => x.2 == p)).map Prod.fst

/-- Whether the placement maps work to a district (R472). -/
def State.holdsWork (s : State) (d : Nat) : Bool := s.net.place.any (fun x => x.2.d.val == d)

/-- Logical parcels that a district hosts. -/
def State.hostedBy (s : State) (d : Nat) : List Nat :=
  (s.net.place.filter (fun x => x.2.d.val == d)).map Prod.fst

/-! ### Faults that call for a replay (R411, R543, R544, R561) -/

/-- Every uncommitted step is to be replayed; the interruption's start is noted. -/
def State.spoil (s : State) : State :=
  if s.serve.steps.all (fun (st : Step) => st.committed) then s
  else { s with
    serve := { s.serve with steps := s.serve.steps.map (fun (st : Step) =>
      if st.committed then st else { st with spoiled := true }) }
    recov := { s.recov with faultSince := some (s.recov.faultSince.getD s.time.ns) } }

/-- A fault of the replay, replacement or evacuation class: fatal in BOOT, else the uncommitted steps are replayed. -/
def State.serviceFault (s : State) (status : Nat) : State := if s.core.st = .boot then s.enterFault status else s.spoil

/-! ### Loss of power (R470, R472) -/

/-- A lot without power: its cells keep their levels, it is STALE, the rest is gone (R77). -/
def LotState.unpowered (x : LotState) : LotState :=
  { cells := x.cells, segment := x.segment, failedLast := x.failedLast, adc := x.adc }

/-- A member's KV bookkeeping without its frames and staged rows; homes and tables are in the stacks (R329). -/
def KvState.loseFrames (k : KvState) : KvState :=
  { k with
    pages := k.pages.map (fun (g : Page) => { g with frame := none })
    open_ := []
    staged := []
    homeWrites := []
    halves := [] }

/-- A parcel without power; `keep` says that its SRAM is held (RETAIN). The ration belongs to the physical parcel (R465): DEDUCED
(log 47), it stays. -/
def ParcelState.unpowered (ps : ParcelState) (keep : Bool) : ParcelState :=
  { sram := if keep then ps.sram else []
    meter := { ration := ps.meter.ration, halt := ps.meter.halt }
    health := ps.health
    kv := ps.kv.loseFrames
    lots := ps.lots.map (fun x => (x.1, x.2.unpowered)) }

/-- Every parcel of a district changed. -/
def State.mapDist (s : State) (d : Nat) (f : ParcelState → ParcelState) : State :=
  { s with parcels := s.parcels.map (fun x => if x.1 / 144 = d then (x.1, f x.2) else x) }

/-- The district whose power an endpoint needs; the blocks of the edge frame and the edge chain need none (R262, R279). -/
def Endpoint.district : Endpoint → Option Nat
  | .parcel p => some p.d.val
  | .warden d => some d.val
  | _ => none

/-- Where a flit is: the district whose power it needs. -/
def Flit.district (f : Flit) : Option Nat :=
  match f.loc with
  | .source => f.src.district
  | .link r _ => some r.d.val
  | .buf r _ => some r.d.val
  | .chain _ => none
  | .sink e => e.district

/-- Flits inside a district are lost (R276). -/
def State.loseFlits (s : State) (d : Nat) : State :=
  { s with net := { s.net with flits := s.net.flits.filter (fun (f : Flit) => f.district ≠ some d) } }

/-- The power of a district removed: parcels, flits, and what its control strip held. -/
def State.losePower (s : State) (d : Nat) (keep : Bool) : State :=
  ((s.mapDist d (fun ps => ps.unpowered keep)).loseFlits d).modDist d (fun x =>
    { x with
      detour := []
      faultBase := []
      locks := []
      live := false
      aligned := false
      nodeLock := false
      switchOn := none
      iNow := 0
      padCounts := [] })

/-! ### Bollards (R29, R546 to R548, R642) -/

/-- A lot whose parcel is fenced: what is in it is flushed, programming stops (R106, R363). -/
def LotState.flushed (x : LotState) : LotState :=
  { x with
    queue := []
    staging := []
    outq := []
    saveHeld := none
    stalled := none
    fits := []
    prog := .idle }

/-- The leases a bollard revokes, counted under R642. -/
def ParcelState.leases (ps : ParcelState) (locks : Nat) : Nat :=
  min 65535 ((if ps.dme.grid then 1 else 0) + locks + ps.lq.length + ps.sq.length + (ps.poolCredits.map Prod.snd).sum)

/-- A parcel fenced: both banks, the event queue, every queue, token and lease are cleared. -/
def ParcelState.fenced (ps : ParcelState) (event leases : Nat) : ParcelState :=
  { ps with
    swp := { ps.swp with
      g := []
      v := []
      fg := []
      fv := []
      pc := 0x530000
      fpc := 0
      fw := false
      fwEvent := 0
      wait := none
      events := []
      recodes := []
      postWaiting := [] }
    meter := { ps.meter with held := [] }
    kv := ps.kv.loseFrames
    rtr := { ps.rtr with fenced := true }
    mapStaged := []
    mapArm := false
    lots := ps.lots.map (fun x => (x.1, x.2.flushed))
    dme := { ps.dme with
      queue := []
      shadow := none
      running := none
      opq := []
      acc := []
      jobs := []
      lease := 0
      grid := false
      corr := []
      gridState := {} }
    tokens := []
    lq := []
    sq := []
    kapq := []
    lane := { sent := ps.lane.sent, received := ps.lane.received, spillNext := ps.lane.spillNext }
    poolCredits := []
    health := { ps.health with bollard := true, leases := leases, fenceEvent := BitVec.ofNat 16 event } }

/-- Pool credits go back to their controllers (R379, R546). -/
def State.returnPool (s : State) (cs : Sparse Nat) : State :=
  { s with stk := { s.stk with pools := cs.foldl (fun (m : Sparse Nat) c =>
    Sparse.put m c.1 (Sparse.get 4096 m c.1 + c.2)) s.stk.pools } }

/-- Flits on their way into or out of a parcel's local port, and reads of it that wait at a controller, are discarded
(R546). -/
def State.dropLocal (s : State) (p : Pid) : State :=
  { s with net := { s.net with flits := s.net.flits.filter (fun (f : Flit) =>
    !(f.loc == .link p 4 || f.loc == .buf p 4 || f.loc == .sink (.parcel p) || (f.loc == .source && f.src == .parcel p) ||
      (f.src == .parcel p && (match f.loc, f.payload with | .sink (.stack _), .readReq .. => true | _, _ => false)))) } }

/-- The flows of a parcel demoted (R546). -/
def State.demoteParcel (s : State) (p : Pid) : State :=
  match s.logicalAt p with
  | none => s
  | some l => { s with net := { s.net with plan := s.net.plan.map (fun (f : PlanFlow) =>
      if f.src = l || f.dst = l then f.demote else f) } }

/-- The fence itself: everything a bollard does to the engine's state but the log entry and the replay. -/
def State.fence (s : State) (p : Pid) (event : Nat) : State :=
  let ps := s.parcel p
  let mine := fun (l : PageLock) => l.parcel == p.p.val
  let locks := ((s.dist p.d.val).locks.filter mine).length
  let s1 := ((s.setParcel p (ps.fenced event (ps.leases locks))).returnPool ps.poolCredits).dropLocal p
  (s1.modDist p.d.val (fun x => { x with locks := x.locks.filter (fun l => !mine l) })).demoteParcel p

/-- BOLLARD: a warden fences a parcel within 100 ns; a parcel that hosts work leaves the uncommitted steps to be replayed
(R29, R548). -/
def State.bollard (s : State) (p : Pid) (event : Nat) : State :=
  let s1 := s.fence p event
  let s2 := s1.event { code := 34, severity := 1, d := p.d.val, parcel := p.p.val, detail := leBytes event 2 }
  if (s2.logicalAt p).isSome then s2.serviceFault stRevoked else s2

/-! ### Trips (R454, R480, R483, R507) -/

/-- The reply to the DISTRICT_SET_STATE in progress for a district, and the end of its transition. -/
def State.endTransition (s : State) (d status : Nat) : State :=
  let x := s.dist d
  let s1 := s.setDist d { x with busy := false, switchOn := none, replyTo := none }
  match x.replyTo with
  | some t => s1.reply t 0x0002 { status := status }
  | none => s1

/-- A district becomes TRIPPED with a cause: its power is gone, a transition of its own ends with the cause; the event is
logged (R454, R483). -/
def State.trip (s : State) (d cause code : Nat) : State :=
  let s1 := s.losePower d false
  let s2 := (s1.modDist d (fun x => { x with
    st := .tripped
    cause := if x.st = .tripped then x.cause else cause
    trips := satAdd 8 x.trips 1 })).endTransition d cause
  let s3 := s2.event { code := code, status := cause, severity := 1, d := d }
  s3.serviceFault cause

end Sys2Proof.Machine
end

