-- ==== Sys2Proof/Machine/Avenue.lean ====
section
/-!
DEFINITION. Avenue: messages, reliability, multipath; the RDMA connections on the wire; the rows DATA_MESSAGE, ACK, ACK_SEND,
PROBE, MESSAGE_CLOSE, RETRANSMIT, PAUSE_SPILL, REMOTE_PAUSE (14 R423 to R449).
-/
namespace Sys2Proof.Machine

/-! ### Links (R423, R437) -/

/-- The links of a port mode and the rate of each, in units of 100 Gb/s (R423). -/
def modeLinks (m : Nat) : Nat × Nat :=
  match m with
  | 1 => (1, 16) | 2 => (1, 8) | 3 => (1, 8) | 4 => (2, 4) | 5 => (2, 4) | 6 => (1, 4) | 7 => (4, 2) | 8 => (4, 2)
  | 9 => (2, 2) | 10 => (8, 1) | 11 => (4, 1) | _ => (0, 0)

/-- Lanes per link of a port mode (R423). -/
def modeLanes (m : Nat) : Nat :=
  match m with
  | 1 => 8 | 2 => 8 | 3 => 4 | 4 => 4 | 5 => 2 | 6 => 8 | 7 => 2 | 8 => 1 | 9 => 4 | 10 => 1 | 11 => 2 | _ => 0

/-- The engine's live links. -/
def State.liveLinks (s : State) : List Nat := (List.range 128).filter (fun l => s.linkLive l)

/-- One round over some links, each as often as its rate says (R437). DESIGN CHOICE (log 27): a link's turns follow each
other. -/
def State.roundOf (s : State) (links : List Nat) : List Nat :=
  links.flatMap (fun l => List.replicate (modeLinks (s.port (l / 8)).mode).2 l)

/-- The link for the `n`-th message: 128 where none is live. -/
def State.linkFor (s : State) (links : List Nat) (n : Nat) : Nat :=
  let r := s.roundOf links
  if r.isEmpty then 128 else r.getD (n % r.length) 128

/-! ### Messages (R432) -/

/-- Bytes 0 to 27 of a v2 header. -/
def aveHead (typ : Nat) (h : AveHdr) : List Byte :=
  leBytes (0x20 + typ) 1 ++ leBytes h.nrec.toNat 1 ++ leBytes h.chm.toNat 1 ++ leBytes h.tp.toNat 1 ++
    leBytes h.srcE.toNat 2 ++ leBytes h.dstE.toNat 2 ++ leBytes h.srcP.toNat 2 ++ leBytes h.dstP.toNat 2 ++
    leBytes h.fseq.toNat 4 ++ leBytes h.aux.toNat 4 ++ leBytes h.mseq.toNat 4 ++ leBytes h.aux2.toNat 4

/-- A message: header, HCRC, records. -/
def aveBytes (typ : Nat) (h : AveHdr) (body : List Byte) : List Byte :=
  aveHead typ h ++ leBytes (crc32c (aveHead typ h)) 4 ++ body

/-! ### Frames (R428, R431, R437) -/

/-- The MAC address of link `l` of engine `e` on data links: 02:4C:57, then 128E + L in 24 bits (R428). -/
def linkMac (e l : Nat) : BitVec 48 := 0x024C57#24 ++ BitVec.ofNat 24 (128 * e + l)

/-- The IPv6 address of link `l` of engine `e`: PREFIX, then 128E + L (R428). -/
def State.linkIp (s : State) (e l : Nat) : BitVec 128 := s.underPrefix (128 * e + l)

/-- The frame of a message on link `l`, from the DST_ENGINE and the PATH of its header. -/
def State.aveFrame (s : State) (l : Nat) (bs : List Byte) : AveFrame :=
  let e := leNat ((bs.drop 6).take 2) % 2 ^ 14
  let far := (Config.destLink e l).toNat
  if s.fab.encap = 1 then
    .ud (s.linkIp s.fab.engineId l) (s.linkIp e far) (0xC000 + (bs.getD 3 0).toNat / 16) 4791 2 s.fab.qKey
  else .raw (linkMac s.fab.engineId l) (linkMac e far) s.fab.prio 0x88B5

/-- A message put onto link `l`. -/
def State.aveEmit (s : State) (l : Nat) (bs : List Byte) : State := s.emit (.ave l (s.aveFrame l bs) bs)

/-! ### The spill area of a port (R294, R382, R435) -/

/-- Frames for a port's spill area: they wait, as records with their addresses, for the write flits that carry them. -/
def State.portSpill (s : State) (k : Nat) (fs : List (List Byte)) : State :=
  let bs := (Config.portSpill k fs).take 0x400000
  let x := s.port k
  s.setPort k { x with spillQueue := x.spillQueue ++
    (pieces 72 bs.length bs).zipIdx.map (fun r => (0x44000000 + k * 0x400000 + 72 * r.2, r.1)) }

/-- A port's write credit for a controller, a pool credit first, and whether it is one; none where it holds none (R293). -/
def Port.takeCredit (x : Port) (k : StackId) : Option (Port × Bool) :=
  let pool := Sparse.get 0 x.poolCredits k.val
  let own := Sparse.get 2 x.writeCredits k.val
  if pool > 0 then some ({ x with poolCredits := Sparse.put x.poolCredits k.val (pool - 1) }, true)
  else if own > 0 then some ({ x with writeCredits := Sparse.put x.writeCredits k.val (own - 1) }, false)
  else none

/-- Up to `n` records of a port's spill queue leave on VC3, while credits are held and the lanes take them (R293, R294). -/
def State.drainPort (s : State) (k : PortId) : Nat → State
  | 0 => s
  | n + 1 =>
    match (s.port k.val).spillQueue with
    | [] => s
    | (a, b) :: rest =>
      let c := s.stk.lead a
      match (s.port k.val).takeCredit c with
      | none => s
      | some (x, pool) =>
        if !s.canSend 3 (.stack c) (.port k) then s
        else match (s.setPort k.val { x with spillQueue := rest }).inject 3 0 0 4 (.stack c) (.port k) (.write a b .port pool) with
          | none => s
          | some t => t.drainPort k n

/-- The state kept for a peer. -/
def State.peer (s : State) (e : Nat) : Peer := Sparse.get {} s.fab.peers e

/-- The state with a peer as given. -/
def State.setPeer (s : State) (e : Nat) (p : Peer) : State :=
  { s with fab := { s.fab with peers := Sparse.put s.fab.peers e p } }

/-- What the sender of a message says beside its type: channel and mode, tenant, parcels, FSEQ, AUX. -/
structure AveOut where
  chm : Nat := 0
  tenant : Nat := 0
  srcP : Nat := 0xFFFF
  dstP : Nat := 0xFFFF
  fseq : Nat := 0
  aux : Nat := 0
deriving DecidableEq, Repr

/-- The unacknowledged messages in the transmit buffer of port `k`, with their peers (R435). -/
def State.txBuffer (s : State) (k : Nat) : List (Nat × Unacked) :=
  s.fab.peers.flatMap (fun x => (x.2.unacked.filter (fun (u : Unacked) => u.link / 8 == k && !u.spilled)).map (fun u => (x.1, u)))

/-- The message of a list that was sent first. -/
def oldestSent : List (Nat × Unacked) → Option (Nat × Unacked)
  | [] => none
  | x :: xs => some (xs.foldl (fun m y => if y.2.order < m.2.order then y else m) x)

/-- While a port's messages exceed its transmit buffer of 16 MiB, the oldest goes to the spill area: `n` at most (R435). -/
def State.spillTx (s : State) (k : Nat) : Nat → State
  | 0 => s
  | n + 1 =>
    let held := s.txBuffer k
    if (held.map (fun x => x.2.bytes.length)).sum ≤ 16777216 then s
    else match oldestSent held with
      | none => s
      | some x =>
        let p := s.peer x.1
        ((s.setPeer x.1 { p with unacked := p.unacked.map (fun (u : Unacked) =>
          if u.mseq = x.2.mseq then { u with spilled := true } else u) }).portSpill k [x.2.bytes]).spillTx k n

/-- A message numbered and sent to a peer on one of some links, and kept until it is acknowledged (R434, R437). -/
def State.aveNumbered (s : State) (dst typ : Nat) (links : List Nat) (o : AveOut) (body : List Byte) : State :=
  let p := s.peer dst
  let h : AveHdr := {
    nrec := BitVec.ofNat 8 (body.length / 72)
    chm := BitVec.ofNat 8 o.chm
    tp := BitVec.ofNat 8 (o.tenant % 16 + 16 * p.path)
    srcE := BitVec.ofNat 16 s.fab.engineId
    dstE := BitVec.ofNat 16 dst
    srcP := BitVec.ofNat 16 o.srcP
    dstP := BitVec.ofNat 16 o.dstP
    fseq := BitVec.ofNat 32 o.fseq
    aux := BitVec.ofNat 32 o.aux
    mseq := BitVec.ofNat 32 p.txNext
    aux2 := 0 }
  let bs := aveBytes typ h body
  let l := s.linkFor links p.txNext
  let go := s.linkOpen l
  let s0 := { s with fab := { s.fab with sends := s.fab.sends + 1 } }
  let s1 := s0.setPeer dst { p with
    path := (p.path + 1) % 16
    txNext := (p.txNext + 1) % 2 ^ 32
    unacked := p.unacked ++ [{ mseq := p.txNext, bytes := bs, link := l, sent := go, order := s.fab.sends }] }
  let s2 := if l < 128 then s1.spillTx (l / 8) (s1.txBuffer (l / 8)).length else s1
  if go then s2.aveEmit l bs else s2

/-- A message to a peer; the first one is preceded by a PROBE (R434). Nothing is sent while the data fabric is disabled
(R427). -/
def State.aveSend (s : State) (dst typ : Nat) (links : List Nat) (o : AveOut) (body : List Byte) : State :=
  if !s.fab.ok then s
  else
    let p := s.peer dst
    let s1 := if p.probed then s else (s.setPeer dst { p with probed := true }).aveNumbered dst 8 links {} []
    s1.aveNumbered dst typ links o body

/-! ### Reception (R427, R429, R431 to R434, R450, R641) -/

/-- Whether an engine ID field names an engine or none (R429). -/
def engineIdOk (e : BitVec 16) : Bool := e.toNat ≤ 10239 || e.toNat == 0x3FFF

/-- Records of a message's body. -/
def aveRecords (n : Nat) (body : List Byte) : List (List Byte) := chunks 72 n body

/-- Whether a message is dropped and counted in BAD_HDR (R429, R431 to R433, R641). -/
def State.aveBad (s : State) (typ : Nat) (m : AveIn) : Bool :=
  let n := m.hdr.nrec.toNat
  (!m.onMgmt && m.roce != (s.fab.encap == 1)) ||
  m.oddType || m.hcrc.toNat ≠ crc32c (aveHead typ m.hdr) || m.hdr.chm.toNat ≥ 128 || m.hdr.srcE.toNat ≥ 16384 ||
  m.hdr.dstE.toNat ≥ 16384 || n > (if s.fab.encap = 1 then 56 else 112) || m.body.length < 72 * n ||
  !engineIdOk m.hdr.srcE || !engineIdOk m.hdr.dstE ||
  (4 ≤ typ && typ ≤ 7 && !(aveRecords n m.body).all recordOk)

/-- A message counted in BAD_HDR. -/
def State.badHdr (s : State) : State := { s with fab := { s.fab with badHdr := satAdd 32 s.fab.badHdr 1 } }

/-- What becomes of a message as it arrives: whether it goes on to its type's handling. A management port takes MGMT only;
data links are off without a fabric configuration; a message for another engine is not taken. -/
def State.aveCheck (s : State) (typ : Nat) (m : AveIn) : State × Bool :=
  if m.onMgmt && typ ≠ 7 then (s, false)
  else if !m.onMgmt && !(s.fab.ok && s.linkLive m.link) then (s, false)
  else if s.aveBad typ m then (s.badHdr, false)
  else if m.hdr.dstE.toNat ≠ s.fab.engineId then (s, false)
  else (s, true)

/-- Whether message number `a` lies at or below `b`, both modulo 2^32. -/
def atOrBelow (a b : Nat) : Bool := (b + 2 ^ 32 - a % 2 ^ 32) % 2 ^ 32 < 2 ^ 31

/-- The cumulative number moved up over what has been received above it. -/
def advanceCum : Nat → Nat → List Nat → Nat × List Nat
  | 0, c, l => (c, l)
  | n + 1, c, l =>
    let k := (c + 1) % 2 ^ 32
    if l.contains k then advanceCum n k (l.filter (fun x => x ≠ k)) else (c, l)

/-- A message's number taken: a duplicate is dropped and counted; else an ACK is due (R434). The host's messages are not
numbered. -/
def State.aveAccept (s : State) (m : AveIn) : State × Bool :=
  let e := m.hdr.srcE.toNat
  if e = 0x3FFF then (s, true)
  else
    let p := s.peer e
    let n := m.hdr.mseq.toNat
    if atOrBelow n p.rxCum || p.rxAbove.contains n then
      ({ (s.setPeer e { p with ackDue := true }) with fab := { (s.setPeer e { p with ackDue := true }).fab with
        dupDrop := satAdd 32 s.fab.dupDrop 1 } }, false)
    else
      let r := advanceCum (p.rxAbove.length + 1) p.rxCum (p.rxAbove ++ [n])
      (s.setPeer e { p with rxCum := r.1, rxAbove := r.2, ackDue := true }, true)

/-- A message checked and accepted. -/
def State.aveTake (s : State) (typ : Nat) (m : AveIn) : State × Bool :=
  let c := s.aveCheck typ m
  if c.2 then c.1.aveAccept m else c

/-! ### DATA (R438) -/

/-- A record of a DATA message injected toward its target under the message's TENANT (R441); where it cannot be, the step is
replayed. -/
def State.injectData (s : State) (m : AveIn) (i : Nat) (r : List Byte) : State :=
  let flow : Flow := { eng := m.hdr.srcE.toNat, lp := m.hdr.srcP.toNat, ch := m.hdr.chm.toNat % 64 }
  let raw := m.hdr.chm.toNat / 64 % 2 = 1
  let k : PortId := ⟨m.link / 8 % 16, Nat.mod_lt _ (by decide)⟩
  match s.net.place.lookup m.hdr.dstP.toNat with
  | none => s.spoil
  | some q => (s.injectFor (m.hdr.tp.toNat % 16) 1 flow.ch (m.hdr.fseq.toNat + i) 0 (.parcel q) (.port k)
      (.record flow raw r m.hdr.aux.toNat)).getD s.spoil

/-- DATA_MESSAGE. -/
def execDataMessage (m : AveIn) (s : State) : Out :=
  .next (
    let a := s.aveTake 1 m
    if !a.2 then a.1
    else (aveRecords m.hdr.nrec.toNat m.body).zipIdx.foldl (fun (t : State) r => t.injectData m r.2 r.1) a.1)

/-! ### Acknowledgement and retransmission (R434) -/

/-- The peer declared unreachable: the step is replayed and the host is informed. -/
def State.giveUp (s : State) (e : Nat) : State :=
  let p := s.peer e
  let s1 := s.setPeer e { p with unacked := [], unreach := true }
  let s2 := { s1 with fab := { s1.fab with unreach := satAdd 16 s1.fab.unreach 1 } }
  (s2.event { code := 50, severity := 1, detail := leBytes e 2 }).spoil

/-- A message sent again, on another live link where there is one; after eight times its peer is given up. -/
def State.resend (s : State) (e : Nat) (u : Unacked) : State :=
  if u.resent ≥ 8 then s.giveUp e
  else
    let others := s.liveLinks.filter (fun l => l ≠ u.link)
    let l := s.linkFor (if others.isEmpty then s.liveLinks else others) (u.mseq + u.resent)
    let go := s.linkOpen l
    let p := s.peer e
    let s1 := s.setPeer e { p with unacked := p.unacked.map (fun (x : Unacked) =>
      if x.mseq = u.mseq then { x with link := l, resent := u.resent + 1, sent := go, spilled := false } else x) }
    let s2 := { s1 with fab := { s1.fab with retx := satAdd 32 s1.fab.retx 1 } }
    if go then s2.aveEmit l u.bytes else s2

/-- RETRANSMIT. -/
def execRetransmit (peer : BitVec 14) (mseq : BitVec 32) (s : State) : Out :=
  .next (match (s.peer peer.toNat).unacked.find? (fun (u : Unacked) => u.mseq == mseq.toNat) with
    | some u => s.resend peer.toNat u
    | none => s)

/-- Whether an ACK acknowledges a message. -/
def ackCovers (cum : Nat) (bits : BitVec 32) (n : Nat) : Bool :=
  atOrBelow n cum || ((n + 2 ^ 32 - (cum + 1)) % 2 ^ 32 < 32 && bits.getLsbD ((n + 2 ^ 32 - (cum + 1)) % 2 ^ 32))

/-- The messages that an ACK reports above a number. -/
def ackLater (cum : Nat) (bits : BitVec 32) (n : Nat) : Nat :=
  ((List.range 32).filter (fun i => bits.getLsbD i && !atOrBelow (cum + 1 + i) n)).length

/-- ACK: acknowledged messages are released; one that is missing while three later ones are acknowledged is sent again at
once. -/
def State.ack (s : State) (m : AveIn) : State :=
  let c := s.aveCheck 2 m
  if !c.2 then c.1
  else
    let e := m.hdr.srcE.toNat
    let p := c.1.peer e
    let cum := m.hdr.aux.toNat
    let left := p.unacked.filter (fun (u : Unacked) => !ackCovers cum m.hdr.aux2 u.mseq)
    let s1 := c.1.setPeer e { p with unacked := left, unreach := false }
    (left.filter (fun (u : Unacked) => ackLater cum m.hdr.aux2 u.mseq ≥ 3)).foldl
      (fun (t : State) u => t.resend e u) s1

/-- ACK. -/
def execAck (m : AveIn) (s : State) : Out := .next (s.ack m)

/-- ACK_SEND: the ACK that is due to a peer leaves on a live link. -/
def State.ackSend (s : State) (e : Nat) : State :=
  let p := s.peer e
  if !p.ackDue || !s.fab.ok then s
  else
    let bits := ((List.range 32).filter (fun i => p.rxAbove.contains ((p.rxCum + 1 + i) % 2 ^ 32))).foldl
      (fun (a : Nat) i => a + 2 ^ i) 0
    let h : AveHdr := {
      nrec := 0
      chm := 0
      tp := BitVec.ofNat 8 (16 * p.path)
      srcE := BitVec.ofNat 16 s.fab.engineId
      dstE := BitVec.ofNat 16 e
      srcP := 0xFFFF
      dstP := 0xFFFF
      fseq := 0
      aux := BitVec.ofNat 32 p.rxCum
      mseq := 0
      aux2 := BitVec.ofNat 32 bits }
    let l := s.linkFor s.liveLinks p.txNext
    if !s.linkOpen l then s
    else (s.setPeer e { p with ackDue := false, path := (p.path + 1) % 16 }).aveEmit l (aveBytes 2 h [])

/-- ACK_SEND. -/
def execAckSend (peer : BitVec 14) (s : State) : Out := .next (s.ackSend peer.toNat)

/-- The receive state for a sender reset by its PROBE: its numbering starts at the PROBE's MSEQ, which is received. -/
def State.probed (s : State) (e mseq : Nat) : State :=
  s.setPeer e { s.peer e with rxCum := mseq, rxAbove := [], ackDue := true, unreach := false }

/-- PROBE. -/
def execProbe (m : AveIn) (s : State) : Out :=
  .next (
    let c := s.aveCheck 8 m
    if !c.2 || m.hdr.srcE = 0x3FFF then c.1 else c.1.probed m.hdr.srcE.toNat m.hdr.mseq.toNat)

/-! ### Egress (R436, R437) -/

/-- The flow of a record on its way out, with its target engine and parcel: what one DATA message holds. -/
structure EgressKey where
  flow : Flow
  dstE : Nat
  dstP : Nat
  raw : Bool
  step : Nat
deriving DecidableEq, Repr

/-- A record that waits in a port block: its flow, its number in the flow, its bytes, its flit and tenant. -/
structure EgressRec where
  key : EgressKey
  fseq : Nat
  bytes : List Byte
  flit : Nat
  tenant : Nat
deriving DecidableEq, Repr

/-- The records at a port block, in order of arrival. -/
def State.egressAt (s : State) (k : PortId) : List EgressRec :=
  s.net.flits.filterMap (fun (f : Flit) =>
    if f.loc = .sink (.port k) then
      (match f.payload with
      | .egress flow dstE dstP fseq raw bytes step => some {
          key := { flow := flow, dstE := dstE, dstP := dstP, raw := raw, step := step }
          fseq := fseq
          bytes := bytes
          flit := f.id
          tenant := f.tenant }
      | _ => none)
    else none)

/-- The longest run of records that continues a number, at most `n`. -/
def runFrom (next : Nat) : Nat → List EgressRec → List EgressRec
  | 0, _ => []
  | n + 1, rs =>
    match rs.find? (fun (r : EgressRec) => r.fseq == next) with
    | some r => r :: runFrom (next + 1) n rs
    | none => []

/-- MESSAGE_CLOSE: the oldest flow's records that follow each other, up to the encapsulation's limit, leave as one DATA
message on the port's live links (R437). -/
def State.messageClose (s : State) (k : PortId) : State :=
  let rs := s.egressAt k
  match rs with
  | [] => s
  | r :: _ =>
    let mine := rs.filter (fun (x : EgressRec) => x.key == r.key)
    let first := mine.foldl (fun (m : Nat) (x : EgressRec) => min m x.fseq) r.fseq
    let run := runFrom first (if s.fab.encap = 1 then 56 else 112) mine
    let links := s.liveLinks.filter (fun l => l / 8 == k.val)
    if links.isEmpty then s
    else
      let s1 := { s with net := { s.net with flits := s.net.flits.filter (fun (f : Flit) =>
        !run.any (fun (x : EgressRec) => x.flit == f.id)) } }
      s1.aveSend r.key.dstE 1 links {
        chm := r.key.flow.ch + (if r.key.raw then 64 else 0)
        tenant := r.tenant
        srcP := r.key.flow.lp
        dstP := r.key.dstP
        fseq := first
        aux := r.key.step } (run.flatMap EgressRec.bytes)

/-- MESSAGE_CLOSE. -/
def execMessageClose (port : PortId) (s : State) : Out := .next (s.messageClose port)

/-! ### Remote pause (R294, R382, R445) -/

/-- What waits at a port while it is paused: RDMA writes and messages on its links. -/
def State.heldFrames (s : State) (k : Nat) : List (List Byte) :=
  (s.fab.conns.flatMap (fun x => if x.2.link / 8 = k && x.2.link < 128 then
    (x.2.unacked.filter (fun (w : RcWrite) => !w.sent)).map RcWrite.bytes else [])) ++
  (s.fab.peers.flatMap (fun x => (x.2.unacked.filter (fun (u : Unacked) => !u.sent && u.link / 8 == k)).map
    Unacked.bytes))

/-- The RDMA writes of a ring that have not left go out on its link, or all that are not acknowledged do. -/
def State.flushConn (s : State) (r : Nat) (all_ : Bool) : State :=
  let c := s.conn r
  if !s.linkOpen c.link || c.failed then s
  else (c.unacked.filter (fun (w : RcWrite) => all_ || !w.sent)).foldl
    (fun (t : State) w => t.emit (.rdmaWrite r (s.rcAddr r) w.psn w.addr w.rkey w.bytes))
    (s.setConn r { c with unacked := c.unacked.map (fun (w : RcWrite) => { w with sent := true }) })

/-- The messages to a peer that have not left go out on their links. -/
def State.flushPeer (s : State) (e : Nat) : State :=
  let p := s.peer e
  (p.unacked.filter (fun (u : Unacked) => !u.sent && s.linkOpen u.link)).foldl
    (fun (t : State) u => t.aveEmit u.link u.bytes)
    (s.setPeer e { p with unacked := p.unacked.map (fun (u : Unacked) =>
      if !u.sent && s.linkOpen u.link then { u with sent := true, spilled := false } else u) })

/-- Everything that can leave leaves. -/
def State.flushAll (s : State) : State :=
  let s1 := (s.fab.conns.map Prod.fst).foldl (fun (t : State) r => t.flushConn r false) s
  (s1.fab.peers.map Prod.fst).foldl (fun (t : State) e => t.flushPeer e) s1

/-- REMOTE_PAUSE: egress on PRIO pauses, or goes on with what was held. -/
def execRemotePause (port : PortId) (pause : Bool) (s : State) : Out :=
  .next (
    let x := s.port port.val
    if pause then
      s.setPort port.val { x with paused := true, pauseSince := if x.paused then x.pauseSince else s.time.ns }
    else (s.setPort port.val { x with paused := false, spilled := [] }).flushAll)

/-- PAUSE_SPILL: frames held for more than 1 ms of engine time by remote pause go to the port's spill area, in write flits as time goes
on. -/
def execPauseSpill (port : PortId) (s : State) : Out :=
  .next (
    let x := s.port port.val
    let fs := s.heldFrames port.val
    if !x.paused || s.time.ns ≤ x.pauseSince + 1000000 || fs.isEmpty then s
    else
      let s2 := (s.setPort port.val { x with spilled := List.range fs.length }).portSpill port.val fs
      { s2 with fab := { s2.fab with peers := s2.fab.peers.map (fun y => (y.1, { y.2 with
        unacked := y.2.unacked.map (fun (u : Unacked) =>
          if !u.sent && u.link / 8 == port.val then { u with spilled := true } else u) })) } })

/-! ### Links down (R425, R434, R446, R449, R529) -/

/-- The lanes of link `j` of a port (R423). -/
def Port.lanesOf (x : Port) (j : Nat) : List Nat := (List.range (modeLanes x.mode)).map (fun i => modeLanes x.mode * j + i)

/-- A mask of lanes. -/
def laneMask (ls : List Nat) : BitVec 8 := BitVec.ofNat 8 ((ls.map (fun i => 2 ^ i)).sum)

/-- A link down at its port: no eye is shown for its lanes. -/
def Port.down (x : Port) (j : Nat) : Port :=
  { x with
    linkUp := x.linkUp &&& ~~~ (BitVec.ofNat 8 (2 ^ j))
    eyes := x.eyes.filter (fun e => !(x.lanesOf j).contains e.1) }

/-- RC connections on links that are not live moved to one that is, and their packets resent (R446). -/
def State.moveConns (s : State) : State :=
  (s.fab.conns.map Prod.fst).foldl (fun (t : State) r =>
    let c := t.conn r
    if !c.bound || c.failed || t.linkLive c.link then t
    else (t.setConn r { c with link := t.liveLinks.headD 128 }).flushConn r true) s

/-- Messages that a link carried sent again on others (R434). -/
def State.resendFrom (s : State) (l : Nat) : State :=
  s.fab.peers.foldl (fun (t : State) x =>
    (x.2.unacked.filter (fun (u : Unacked) => u.link == l)).foldl (fun (v : State) u => v.resend x.1 u) t) s

/-- LINK_DOWN: the link leaves multipath. -/
def State.linkDown (s : State) (l : Nat) : State :=
  let x := s.port (l / 8)
  if !x.linkUp.getLsbD (l % 8) then s
  else
    let s1 := s.setPort (l / 8) (x.down (l % 8))
    let s2 := { s1 with fab := { s1.fab with linkDown := satAdd 16 s1.fab.linkDown 1 } }
    ((s2.event { code := 48, severity := 1, detail := leBytes l 1 }).resendFrom l).moveConns

/-- Eye widths of a port's lanes: 0 for a lane whose link is down (R542). -/
def Port.shownEyes (x : Port) (eyes : List (BitVec 8)) : List (BitVec 8) :=
  let up := ((List.range 8).filter (fun j => x.linkUp.getLsbD j)).flatMap x.lanesOf
  (List.range 8).map (fun i => if up.contains i then eyes.getD i 0 else 0)

/-- The links of a port that are up. -/
def State.upLinks (s : State) (k : Nat) : List Nat :=
  ((List.range 8).filter (fun j => (s.port k).linkUp.getLsbD j)).map (fun j => 8 * k + j)

end Sys2Proof.Machine
end

