-- ==== Sys2Proof/Machine/CvtSmp.lean ====
section
/-!
DEFINITION. Conversion and the sampling helpers (06 R187 to R189, R638, R640).
-/
namespace Sys2Proof.Machine

/-- Whether a range of the vector unit may be read: areas and alignment of R638; an empty range is none. -/
def readable (ps : ParcelState) (a n al : Nat) : Bool := n == 0 || (a % al == 0 && loadOpen ps.swp.fw a n)

/-- Whether a range of the vector unit may be written. -/
def writable (ps : ParcelState) (a n al : Nat) : Bool := n == 0 || (a % al == 0 && ps.storeOpen ps.swp.fw a n)

/-- The bytes that CVT writes: 1,024 codes and a scale byte with WIDTH, else the elements' (R188). -/
def cvtDstBytes (o : CvtOps) (n : Nat) : Nat := if o.width = 0 then fmtBytes o.df.toNat n else 1025

/-- The operand exception of CVT: count, formats, SR and WIDTH rules, ranges (R188, R638). DESIGN CHOICE (log 123): a count of 0 with
another operand rule broken raises it; R188 does not say which of the two holds. -/
def cvtBad (ps : ParcelState) (o : CvtOps) (src dst n : Nat) : Bool :=
  let sf := o.sf.toNat
  let df := o.df.toNat
  n > 2 ^ 20 || !fmtOk sf || !fmtOk df || (o.sr && !fmtBlockScaled df) ||
  o.width.toNat > 8 || (o.width ≠ 0 && (df ≠ 0 || n ≠ 1024)) ||
  !readable ps src (fmtBytes sf n) (fmtAlign sf) || !writable ps dst (cvtDstBytes o n) (fmtAlign df) ||
  overlap src (fmtBytes sf n) dst (cvtDstBytes o n)

/-- What CVT writes and counts (R188). -/
def cvtResult (ps : ParcelState) (o : CvtOps) (src n : Nat) : List Byte × Ev :=
  let bs := ps.read src (fmtBytes o.sf.toNat n)
  if o.width = 0 then
    cvtSeq o.df.toNat (if o.sr then some { key := ps.gReg o.rk.toNat, base := ps.gReg o.rbs.toNat } else none)
      (decodeSeq o.sf.toNat n bs)
  else
    let r := stageVec o.width.toNat o.sf.toNat bs
    (r.1.flatMap (fun c => intBytes c 1) ++ [BitVec.ofNat 8 r.2.1], r.2.2)

/-- CVT (R187, R188). A count of 0 does nothing. -/
def execCvt (p : Pid) (o : CvtOps) (s : State) : Out :=
  s.issueAt p 2 (o.rsv ≠ 0) (fun ps =>
    let src := (ps.gReg o.ra.toNat).toNat
    let dst := (ps.gReg o.rb.toNat).toNat
    let n := (ps.gReg o.rn.toNat).toNat
    if cvtBad ps o src dst n then .exc 5
    else if n = 0 then .done ps ps.next
    else
      let r := cvtResult ps o src n
      .done ((ps.write dst r.1).count o.tag.toNat r.2) ps.next) o.tag.toNat

/-! ### Sampling helpers -/

/-- An indexed value. -/
abbrev Cand := Nat × F32

/-- Whether `a` stands before `b`: larger value in the order of R640, then lower index. -/
def candBefore (a b : Cand) : Bool := f32Key b.2 < f32Key a.2 || (f32Key a.2 == f32Key b.2 && a.1 < b.1)

/-- The first of some candidates in that order. -/
def bestCand : List Cand → Option Cand
  | [] => none
  | c :: cs =>
    match bestCand cs with
    | none => some c
    | some d => some (if candBefore c d then c else d)

/-- The values that can be chosen, with their indices (NaN never is). -/
def cands (vs : List F32) : List Cand := ((vs.zipIdx.map (fun x => (x.2, x.1))).filter (fun c => !f32IsNan c.2))

/-- The first `k` candidates in order. -/
def topK : Nat → List Cand → List Cand
  | 0, _ => []
  | k + 1, cs =>
    match bestCand cs with
    | none => []
    | some c => c :: topK k (cs.filter (fun d => d.1 ≠ c.1))

/-- The entry of STOPK: index and value, 8 bytes (R189). -/
def candBytes (c : Cand) : List Byte := leBytes c.1 4 ++ leBytes c.2.toNat 4

/-- A missing entry: index −1, value −∞. -/
def missingBytes : List Byte := leBytes 0xFFFFFFFF 4 ++ leBytes 0xFF800000 4

/-- SMAX (R189, R640). -/
def execSmax (p : Pid) (o : SmpOps) (s : State) : Out :=
  s.issueAt p 2 (o.rsv ≠ 0) (fun ps =>
    let a := (ps.gReg o.rs1.toNat).toNat
    let n := (ps.gReg o.rs2.toNat).toNat
    if !readable ps a (4 * n) 4 then .exc 5
    else
      let r := match bestCand (cands (words32 (ps.read a (4 * n)))) with
        | some c => BitVec.ofNat 64 c.1
        | none => BitVec.allOnes 64
      .done (ps.setG o.rd.toNat r) ps.next)

/-- STOPK: k entries in descending order (R189, R640). -/
def execStopk (p : Pid) (o : SmpOps) (s : State) : Out :=
  s.issueAt p 2 (o.rsv ≠ 0) (fun ps =>
    let a := (ps.gReg o.rs1.toNat).toNat
    let n := (ps.gReg o.rs2.toNat).toNat
    let d := (ps.gReg o.rs3.toNat).toNat
    let k := o.km1.toNat + 1
    if !readable ps a (4 * n) 4 || !writable ps d (8 * k) 4 then .exc 5
    else
      let t := topK k (cands (words32 (ps.read a (4 * n))))
      .done (ps.write d (t.flatMap candBytes ++ (List.replicate (k - t.length) missingBytes).flatten)) ps.next)

/-- Inclusive prefix sums, left to right, each addition rounded. -/
def prefixSums : F32 → List F32 → List F32
  | _, [] => []
  | acc, v :: vs => f32Add acc v :: prefixSums (f32Add acc v) vs

/-- The inclusive prefix sums of a list: the first value stands as it is, a NaN as the quiet NaN (R138). -/
def scum : List F32 → List F32
  | [] => []
  | v :: vs => (if f32IsNan v then qnan else v) :: prefixSums v vs

/-- SCUM (R189, R640): with n = 0 nothing is written to SRAM and g[RD] = +0. -/
def execScum (p : Pid) (o : SmpOps) (s : State) : Out :=
  s.issueAt p 2 (o.rsv ≠ 0) (fun ps =>
    let a := (ps.gReg o.rs1.toNat).toNat
    let n := (ps.gReg o.rs2.toNat).toNat
    if !readable ps a (4 * n) 4 || !writable ps a (4 * n) 4 then .exc 5
    else
      let r := scum (words32 (ps.read a (4 * n)))
      .done ((ps.write a (bytes32 r)).setG o.rd.toNat ((r.getLastD 0).setWidth 64)) ps.next)

/-- SWORD: word of R160. -/
def execSword (p : Pid) (o : SmpOps) (s : State) : Out :=
  s.issueAt p 2 (o.rsv ≠ 0) (fun ps =>
    .done (ps.setG o.rd.toNat (rndWord (ps.gReg o.rs1.toNat) (ps.gReg o.rs2.toNat))) ps.next)

/-- Each index once, negative ones and those at or above `m` left out. -/
def penaltyIndices (m : Nat) (is : List Int) : List Nat :=
  ((is.filter (fun i => 0 ≤ i && i < (m : Int))).map Int.toNat).eraseDups

/-- A penalised value: v / p if v > 0, else v × p (R189). -/
def penalise (p v : F32) : F32 := if f32Gt v 0 then f32Div v p else f32Mul v p

/-- The penalties applied one index after another. -/
def penaliseAll (a : Nat) (p : F32) (ps : ParcelState) : List Nat → ParcelState
  | [] => ps
  | i :: is =>
    penaliseAll a p (ps.write (a + 4 * i)
      (leBytes (penalise p (BitVec.ofNat 32 (leNat (ps.read (a + 4 * i) 4)))).toNat 4)) is

/-- SPEN (R189): n = 0 does nothing. DESIGN CHOICE (log 123): with n = 0 a bad range of the m logits still raises SWEEPER_OPERAND; R640
and R638 do not say which holds. -/
def execSpen (p : Pid) (o : SmpOps) (s : State) : Out :=
  s.issueAt p 2 (o.rsv ≠ 0) (fun ps =>
    let a := (ps.gReg o.rs1.toNat).toNat
    let n := (ps.gReg o.rs2.toNat).toNat
    let l := (ps.gReg o.rs3.toNat).toNat
    let m := (ps.gReg o.rd.toNat).toNat / 2 ^ 32
    let pen := (ps.gReg o.rd.toNat).setWidth 32
    if !readable ps l (4 * n) 4 || !readable ps a (4 * m) 4 || !writable ps a (4 * m) 4 then .exc 5
    else .done (penaliseAll a pen ps
      (penaltyIndices m ((chunks 4 n (ps.read l (4 * n))).map leInt))) ps.next)

end Sys2Proof.Machine
end

