-- ==== Sys2Proof/Machine/Rdma.lean ====
section
/-!
DEFINITION. The RDMA connections of the clients: RDMA_WRITE, RDMA_READ, UNSUPPORTED_RDMA_OP, RC_ACK, RC_ACK_TIMEOUT,
RC_RETRY_EXHAUSTED, CNP_RECEIVE, RATE_RECOVERY (13 R393, R396, R398; 14 R442 to R446).
-/
namespace Sys2Proof.Machine

/-- Bytes of a request ring that RDMA reaches (R443). -/
def ringBytes : Nat := 0x4000000

/-- A connection fails: its ring's requests complete with RESOURCE_REVOKED at their next commit point (R398). -/
def State.failConn (s : State) (r : Nat) : State :=
  let s1 := s.setConn r { s.conn r with failed := true, unacked := [] }
  { s1 with serve := { s1.serve with reqs := s1.serve.reqs.map (fun (q : Request) =>
    if q.ring = r then { q with end_ := some (q.end_.getD stRevoked) } else q) } }

/-- A request is answered with a NAK (1 invalid request, 2 remote access error) and the connection fails. -/
def State.nakConn (s : State) (r kind : Nat) : State := (s.failConn r).emit (.nak r (s.rcAddr r) kind)

/-- Whether a ring's connection serves its client. -/
def State.connUp (s : State) (r : Nat) : Bool := s.fab.ok && (s.conn r).bound && !(s.conn r).failed

/-- Whether a client write of `n` bytes at ring byte `o` is allowed (R444): in the control block only one whole head; not
the status copies; within the ring. DEDUCED (log 29): a write that touches a head is aligned at both ends. -/
def writeAllowed (o n : Nat) : Bool :=
  o + n ≤ ringBytes && !overlap o n 0x50000 0x10000 &&
  (!overlap o n 0 0x1000 || ((o == 0 || o == 16) && n == 8))

/-- RDMA_WRITE: the bytes land; a CAN_HEAD write is stamped with the engine time of its completion (R396, R444). -/
def State.rdmaWrite (s : State) (r o : Nat) (bs : List Byte) : State :=
  if !s.connUp r then s
  else if !writeAllowed o bs.length then s.nakConn r 2
  else
    let s1 := s.ringWrite r o bs
    let s2 := s1.setConn r { s1.conn r with psnIn := ((s1.conn r).psnIn + 1) % 2 ^ 24 }
    if o = 16 && bs.length = 8 then
      { s2 with serve := { s2.serve with stamps := s2.serve.stamps ++ [{ ring := r, upto := leNat bs, time := s.time.ns }] } }
    else s2

/-- The CNP that answers an ECN-marked packet of a connection (R445). -/
def State.answerEcn (s : State) (r : Nat) (ecn : Bool) : State :=
  if ecn && s.connUp r then s.emit (.cnp r (s.rcAddr r)) else s

/-- RDMA_WRITE. -/
def execRdmaWrite (pkt : RcPkt) (off : Nat) (bytes : List Byte) (s : State) : Out :=
  .next ((s.answerEcn pkt.ring.val pkt.ecn).rdmaWrite pkt.ring.val off bytes)

/-- RDMA_READ: the ring's bytes are returned. DEDUCED (log 29): a read beyond the ring is refused as a write there is. -/
def State.rdmaRead (s : State) (r o n : Nat) : State :=
  if !s.connUp r then s
  else if o + n > ringBytes then s.nakConn r 2
  else s.emit (.rdmaRead r (s.rcAddr r) (s.ringRead r o n))

/-- RDMA_READ. -/
def execRdmaRead (pkt : RcPkt) (off len : Nat) (s : State) : Out :=
  .next ((s.answerEcn pkt.ring.val pkt.ecn).rdmaRead pkt.ring.val off len)

/-- UNSUPPORTED_RDMA_OP: an Invalid Request NAK, and the connection fails (R442). -/
def execUnsupportedRdmaOp (ring : Fin 128) (s : State) : Out :=
  .next (if s.connUp ring.val then s.nakConn ring.val 1 else s)

/-- RC_ACK: writes up to a PSN are released; a NAK that the standard makes fatal fails the connection (R445). -/
def execRcAck (ring : Fin 128) (psn : Nat) (fatalNak : Bool) (s : State) : Out :=
  .next (
    if !s.connUp ring.val then s
    else if fatalNak then s.failConn ring.val
    else s.setConn ring.val { s.conn ring.val with
      retries := 0
      unacked := (s.conn ring.val).unacked.filter (fun (w : RcWrite) => (psn + 2 ^ 24 - w.psn) % 2 ^ 24 ≥ 2 ^ 23) })

/-- RC_ACK_TIMEOUT: a retry, of which there are seven: every unacknowledged packet is sent again (R445). -/
def execRcAckTimeout (ring : Fin 128) (s : State) : Out :=
  .next (
    let c := s.conn ring.val
    if !s.connUp ring.val || c.unacked.isEmpty || c.retries ≥ 7 then s
    else (s.setConn ring.val { c with retries := c.retries + 1 }).flushConn ring.val true)

/-- RC_RETRY_EXHAUSTED: the timeout after the seventh retry fails the connection (R445). -/
def execRcRetryExhausted (ring : Fin 128) (s : State) : Out :=
  .next (
    let c := s.conn ring.val
    if !s.connUp ring.val || c.unacked.isEmpty || c.retries < 7 then s else s.failConn ring.val)

/-- CNP_RECEIVE: the sending rate to the peer halves (R445). Rates are kept in 1/4,096 of link rate, rounded down. DESIGN
CHOICE (log 25). -/
def execCnpReceive (ring : Fin 128) (s : State) : Out :=
  .next (if s.connUp ring.val then s.setConn ring.val { s.conn ring.val with rate := (s.conn ring.val).rate / 2 } else s)

/-- RATE_RECOVERY: the rate rises by 1/64 of link rate, at most to link rate (R445). -/
def execRateRecovery (ring : Fin 128) (s : State) : Out :=
  .next (if s.connUp ring.val then
    s.setConn ring.val { s.conn ring.val with rate := min 4096 ((s.conn ring.val).rate + 64) } else s)

end Sys2Proof.Machine
end

