-- ==== Sys2Proof/Machine/Serve.lean ====
section
/-!
DEFINITION. Admission, cancels, waiting requests, and the filling and sending of batch steps: the rows ADMISSION, CANCEL_SCAN,
WAITING_DEADLINE, STEP_SEND (10 R325, R327; 13 R391 to R404, R407, R409, R415, R416, R418, R420).
-/
namespace Sys2Proof.Machine

/-! ### Tenants, slots, handles (R391, R402, R418) -/

/-- The tenant that owns a ring. -/
def State.ringTenant (s : State) (r : Nat) : Option Nat :=
  (s.serve.tenants.find? (fun x => x.2.enabled && x.2.rings.getLsbD r)).map Prod.fst

/-- The slots of this owner (R402). -/
def State.ownSlots (s : State) : List Nat :=
  let n := max 1 s.model.nengine
  let a := 8192 * s.model.ordinal / n
  (List.range (8192 * (s.model.ordinal + 1) / n - a)).map (fun i => a + i)

/-- The lowest free slot of this owner. DESIGN CHOICE (log 30): the manual does not say which free slot is taken. -/
def State.slotFree (s : State) : Option Nat := s.ownSlots.find? (fun k => !(s.slot k).used)

/-- The prefix that a handle names for a tenant; none where it is stale (R420). -/
def State.citedPrefix (s : State) (t : Nat) (h : Word) : Option Prefix :=
  s.serve.prefixes.find? (fun (x : Prefix) => x.handle == h && x.tenant == t && !x.dropping)

/-! ### Request entries (R394, R395, R420) -/

/-- A field of `n` bytes at byte `o`. -/
def entField (b : List Byte) (o n : Nat) : Nat := leNat ((b.drop o).take n)

/-- A binary32 that is finite and positive. -/
def f32Positive (x : F32) : Bool := f32Gt x 0 && !f32IsInf x

/-- Whether some bytes of an entry are all 0. -/
def entZero (b : List Byte) (o n : Nat) : Bool := ((b.drop o).take n).all (fun x => x == 0)

/-- An entry as a request of a ring, tenant and slot; `pre` is the prefix it cites. -/
def requestOf (b : List Byte) (ring entry tenant slot : Nat) (pre : Option Prefix) (p : Nat) : Request :=
  { ring := ring
    entry := entry
    id := BitVec.ofNat 64 (entField b 0 8)
    seed := BitVec.ofNat 64 (entField b 8 8)
    deadline := entField b 16 8
    promptOff := entField b 24 4
    promptLen := entField b 28 4
    prompt := (pre.map Prefix.tokens).getD []
    prefixSlot := pre.map Prefix.slot
    base := p
    outAddr := entField b 40 8
    outRkey := entField b 48 4
    outEntries := entField b 52 4
    maxTokens := entField b 56 4
    method := entField b 60 1
    spec := entField b 61 1
    adapter := entField b 62 1
    flags := entField b 63 1
    temperature := BitVec.ofNat 32 (entField b 64 4)
    topK := entField b 68 2
    repWindow := entField b 70 2
    topP := BitVec.ofNat 32 (entField b 72 4)
    repPenalty := BitVec.ofNat 32 (entField b 76 4)
    stops := (List.range (min 8 (entField b 80 1))).map (fun i => entField b (96 + 4 * i) 4)
    tenant := tenant
    slot := slot }

/-- Whether an adapter slot is loaded and the tenant's (R395, R360). -/
def State.adapterOk (s : State) (t a : Nat) : Bool :=
  a == 0xFF || (s.model.adapters.lookup a).any (fun (x : Adapter) => x.tenant == t && x.placed && !x.released)

/-- The MALFORMED conditions of R395, and that of R420. -/
def State.requestBad (s : State) (b : List Byte) (r : Request) (pre : Option Prefix) : Bool :=
  let one : F32 := 0x3F800000
  r.flags ≥ 8 || !entZero b 81 15 || !entZero b 128 128 || r.method > 1 ||
  (r.method == 1 && (!f32Positive r.temperature || !(f32Positive r.topP && f32Ge one r.topP) ||
    !(f32Positive r.repPenalty && f32Ge r.repPenalty one))) ||
  r.topK > 256 || r.repWindow > 4096 || entField b 80 1 > 8 || r.spec > s.model.vocab.nspec ||
  !((List.range 17).any (fun k => r.outEntries == 2 ^ (k + 4))) || r.maxTokens < 1 || r.maxTokens > 2 ^ 20 ||
  r.promptLen == 0 || r.promptOff + 4 * r.promptLen > 0x3F00000 || r.base + r.promptLen > s.model.vocab.maxContext ||
  !s.adapterOk r.tenant r.adapter || (r.flags % 2 == 1 && s.model.vocab.pool == 0) ||
  pre.any (fun (x : Prefix) => x.adapter ≠ r.adapter)

/-! ### Admission (R401, R409, R420) -/

/-- A request completed at once: its completion entry and status copy. -/
def State.refuse (s : State) (r : Request) (status : Nat) : State :=
  s.putCompletion r.to 0 0 status 0 (Config.noStep s.serve.finished.length) (completionBody 0 s.time.ns 0 0)

/-- A slot opened from the prefix that slot `f` holds: it refers to the prefix's full pages (R327). -/
def State.openPages (s : State) (slot f : Nat) : State :=
  let p := (s.slot f).len
  (s.setSlot slot { s.slot slot with used := true, len := p, from_ := some f }).mapKv (fun k =>
    { k with pages := k.pages.map (fun (g : Page) =>
      if g.refs.contains f && decide (256 * (g.n + 1) ≤ p) then { g with refs := g.refs ++ [slot] } else g) })

/-- A slot opened from a prefix. -/
def State.openFrom (s : State) (slot : Nat) (x : Prefix) : State := s.openPages slot x.slot

/-- Whether some of `n` bytes of a ring lie in a record that is lost (R564). -/
def State.ringLost (s : State) (ring o n : Nat) : Bool :=
  s.stk.lostRecs.any (fun a => ringBase ring ≤ a && overlap (64 * ((a - ringBase ring) / 72)) 64 o n)

/-- The request at the front of a ring, read, refused or admitted into a free slot; REQ_TAIL moves on. -/
def State.takeRequest (s : State) (ring tenant slot : Nat) : State :=
  let k := s.ringCtr ring 1
  let b := s.ringRead ring (0x10000 + 256 * (k % 1024)) 256
  let handle := BitVec.ofNat 64 (entField b 32 8)
  let pre := if handle = 0 then none else s.citedPrefix tenant handle
  let r := requestOf b ring (k % 1024) tenant slot pre ((pre.map (fun (x : Prefix) => (s.slot x.slot).len)).getD 0)
  let s1 := s.ringWrite ring 8 (leBytes (k + 1) 8)
  let count (t : State) : State := { t with serve := { t.serve with refused := satAdd 16 t.serve.refused 1 } }
  if s.core.st = .draining then s1.refuse r stIllegal
  else if s.requestBad b r pre || s.ringLost ring (0x10000 + 256 * (k % 1024)) 256 then count (s1.refuse r stMalformed)
  else if handle ≠ 0 && pre.isNone then count (s1.refuse r stStale)
  else
    let s2 := match pre with
      | some x => s1.openFrom slot x
      | none => s1.setSlot slot { s1.slot slot with used := true, len := 0, from_ := none }
    { s2 with serve := { s2.serve with reqs := s2.serve.reqs ++ [r] } }

/-- Whether a ring's next request can be taken now, and with which slot. -/
def State.canTake (s : State) (ring tenant : Nat) : Option Nat :=
  if s.ringCtr ring 0 ≤ s.ringCtr ring 1 then none
  else if s.core.st = .draining then some 0
  else if s.serve.reqs.length < 4096 &&
      decide ((s.serve.reqs.filter (fun (r : Request) => r.tenant == tenant)).length <
        (Sparse.get ({} : Tenant) s.serve.tenants tenant).maxReq) && s.recov.unhosted.isEmpty then s.slotFree
  else none

/-- One ring visited. -/
def State.visitRing (s : State) (ring : Nat) : State :=
  match s.ringTenant ring with
  | none => s
  | some t => match s.canTake ring t with
    | none => s
    | some slot => s.takeRequest ring t slot

/-- ADMISSION: the registry visits its rings in ascending number and takes the next request of each; while the engine drains
each completes with ILLEGAL_IN_STATE. -/
def execAdmission (s : State) : Out :=
  .next (if s.inState [.serving, .draining] then (List.range 128).foldl (fun (t : State) r => t.visitRing r) s else s)

/-! ### Cancels and waiting requests (R396, R407, R409) -/

/-- A late cancel answered on the output ring of the request it names. -/
def State.answerLate (s : State) (f : Finished) (stamp step : Nat) : State :=
  let s1 := s.putEntry f.to f.seq
    (outEntry f.id 0 4 stAlready 0 0 (leBytes 0 8 ++ leBytes stamp 8) step f.seq)
  { s1 with serve := { s1.serve with finished := s1.serve.finished.map (fun (x : Finished) =>
    if x = f then { x with seq := x.seq + 1 } else x) } }

/-- The most recent completed request of a ring, entry index and identifier. -/
def State.finishedOf (s : State) (ring entry : Nat) (id : Word) : Option Finished :=
  s.serve.finished.reverse.find? (fun (x : Finished) => x.ring == ring && x.entry == entry && x.id == id)

/-- One cancel entry, with its stamp. -/
def State.cancelEntry (s : State) (ring stamp : Nat) (b : List Byte) : State :=
  let id := BitVec.ofNat 64 (entField b 0 8)
  let e := entField b 8 4
  if s.serve.reqs.any (fun (r : Request) => r.ring == ring && r.entry == e && r.id == id) then
    { s with serve := { s.serve with reqs := s.serve.reqs.map (fun (r : Request) =>
      if r.ring = ring && r.entry = e && r.id = id then { r with cancel := some (min stamp (r.cancel.getD stamp)) } else r) } }
  else match s.finishedOf ring e id with
    | some f => s.answerLate f stamp (Config.noStep s.serve.finished.length)
    | none => { s with serve := { s.serve with cancelIgnored := satAdd 16 s.serve.cancelIgnored 1 } }

/-- The stamp of cancel `k` of a ring: that of the first CAN_HEAD write that covers it. -/
def State.cancelStamp (s : State) (ring k : Nat) : Nat :=
  ((s.serve.stamps.find? (fun (x : HeadStamp) => x.ring == ring && decide (k < x.upto))).map HeadStamp.time).getD s.time.ns

/-- A ring's cancel queue read; CAN_TAIL moves on. -/
def State.scanRing (s : State) (ring : Nat) : State :=
  let t := s.ringCtr ring 3
  let n := min 256 (s.ringCtr ring 2 - t)
  if n = 0 then s
  else
    let s1 := (List.range n).foldl (fun (a : State) i =>
      a.cancelEntry ring (s.cancelStamp ring (t + i)) (s.ringRead ring (0x1000 + 64 * ((t + i) % 256)) 64)) s
    let s2 := s1.ringWrite ring 24 (leBytes (t + n) 8)
    { s2 with serve := { s2.serve with stamps := s2.serve.stamps.filter (fun (x : HeadStamp) =>
      !(x.ring == ring && decide (x.upto ≤ t + n))) } }

/-- Every cancel queue read. -/
def State.readCancels (s : State) : State :=
  (List.range 128).foldl (fun (t : State) r => if (t.ringTenant r).isSome then t.scanRing r else t) s

/-- The completion due to a request outside any step (R409): a cancel stamped before its deadline, its deadline, or what was
decided for it. -/
def Request.waitingEnd (r : Request) (now : Nat) : Option Nat :=
  let due := r.deadline ≠ 0 && decide (r.deadline ≤ now)
  if r.cancel.any (fun c => r.deadline == 0 || decide (c < r.deadline)) then some stCancelled
  else if due then some stDeadline
  else r.end_

/-- A request completed, and a cancel that lost to the completion answered. -/
def State.complete (s : State) (r : Request) (status reason endTime step : Nat) : State :=
  let s1 := s.finish r status reason endTime step
  match (if status = stCancelled then none else r.cancel), s1.finishedOf r.ring r.entry r.id with
  | some c, some f => s1.answerLate f c step
  | _, _ => s1

/-- The requests outside any step whose completion is due, of the statuses wanted, completed. -/
def State.completeWaiting (s : State) (want : Nat → Bool) : State :=
  (s.serve.reqs.filter (fun (r : Request) => r.inStep.isNone && (r.waitingEnd s.time.ns).any want)).foldl
    (fun (t : State) r =>
      t.complete r ((r.waitingEnd s.time.ns).getD stRevoked) 0 s.time.ns (Config.noStep t.serve.finished.length)) s |>.drainEnd

/-- CANCEL_SCAN: the cancel queues are read; a waiting request that a cancel names completes. -/
def execCancelScan (s : State) : Out :=
  .next (if s.inState [.serving, .draining, .loaded] then s.readCancels.completeWaiting (fun c => c == stCancelled) else s)

/-- WAITING_DEADLINE: with no commit before, what is due outside any step completes: a deadline that has passed, or what was decided for
the request. -/
def execWaitingDeadline (s : State) : Out := .next (s.completeWaiting (fun c => c != stCancelled))

/-! ### The rows of a request (R403, R415, R416) -/

/-- Depth of tree node `n`; the root is node 0. -/
def nodeDepth (tree : List (Nat × Nat)) : Nat → Nat → Nat
  | 0, _ => 0
  | k + 1, n => if n = 0 then 0 else nodeDepth tree k ((tree.getD (n - 1) (0, 0)).1) + 1

/-- Nodes in use of depth at most `d`. -/
def treeNodes (tree : List (Nat × Nat)) (d : Nat) : List Nat :=
  ((List.range tree.length).map (fun i => i + 1)).filter (fun n =>
    (tree.getD (n - 1) (0, 0)).1 ≠ 0xFF && nodeDepth tree 17 n ≤ d)

/-- Prompt token `i` of a request, as the arena holds it now. -/
def State.promptToken (s : State) (r : Request) (i : Nat) : Nat :=
  leNat (s.ringRead r.ring (0x100000 + r.promptOff + 4 * i) 4)

/-- The rows of a request's next prefill chunk. -/
def State.prefillRows (s : State) (r : Request) (b : Nat) : List Row :=
  let l := (s.slot r.slot).len
  (List.range (min 32 (r.promptLen - r.fed))).map (fun i => {
    token := s.promptToken r (r.fed + i)
    pos := l + i
    store := l + i
    slot := r.slot
    b := b
    sample := decide (r.fed + i + 1 = r.promptLen)
    tree := false
    parent := 0xFFFFFFFF
    adapter := r.adapter
    tenant := r.tenant })

/-- The rows of a decode step: the chain, then the candidate tree; `at_` is the number of its first row in the step. A request
without candidates has no tree. -/
def State.decodeRows (s : State) (r : Request) (b at_ : Nat) : List Row :=
  let l := (s.slot r.slot).len
  let c := r.chain.length
  let row (tok pos store : Nat) (sample tree : Bool) (parent node : Nat) : Row := {
    token := tok
    pos := pos
    store := store
    slot := r.slot
    b := b
    sample := sample
    tree := tree
    parent := parent
    adapter := r.adapter
    tenant := r.tenant
    node := node }
  let tr := s.model.vocab.tree
  let nodes := if r.cands.isEmpty then [] else treeNodes tr r.spec
  r.chain.zipIdx.map (fun x => row x.1 (l + x.2) (l + x.2) (x.2 + 1 == c) false 0xFFFFFFFF 0) ++
    nodes.map (fun n =>
      let par := (tr.getD (n - 1) (0, 0)).1
      row (Sparse.get 0 r.cands n) (l + c - 1 + nodeDepth tr 17 n) (l + c + n - 1) true true
        (if par = 0 then at_ + c - 1 else at_ + c + nodes.idxOf par) n)

/-- The rows a request adds to a step. -/
def State.rowsFor (s : State) (r : Request) (b at_ : Nat) : List Row :=
  if r.fed < r.promptLen then s.prefillRows r b else s.decodeRows r b at_

/-! ### Filling a step (R325, R403) -/

/-- Whether a waiting request may be placed in a step. -/
def Request.ready (r : Request) (now : Nat) : Bool := r.inStep.isNone && (r.waitingEnd now).isNone

/-- Tenants' queues served in rounds, each up to its easement in a round; those of easement 0 fill what remains. DESIGN CHOICE
(log 26). -/
def weighted : Nat → List (Nat × List Request) → List Request
  | 0, _ => []
  | n + 1, qs =>
    let heads := qs.flatMap (fun q => q.2.take q.1)
    if heads.isEmpty then [] else heads ++ weighted n (qs.map (fun q => (q.1, q.2.drop q.1)))

/-- The order in which requests are offered to a step. -/
def State.offerOrder (s : State) : List Request :=
  let q (t : Nat) : List Request := s.serve.reqs.filter (fun (r : Request) => r.tenant == t && r.ready s.time.ns)
  let e (t : Nat) : Nat := Sparse.get 0 s.net.ease t
  weighted 4097 (((List.range 16).filter (fun t => e t ≠ 0)).map (fun t => (e t, q t))) ++
    ((List.range 16).filter (fun t => e t = 0)).flatMap q

/-- Whether the pages that must be hot fit at every member: the open pages and those that may open of the step's slots (R325). -/
def State.framesFit (s : State) (slots : List Nat) : Bool :=
  s.parcels.all (fun x => x.2.kv.nframe == 0 ||
    decide ((slots.map (fun k =>
      x.2.kv.nkvh * (x.2.owned ((s.slot k).len / 256) (((s.slot k).len + 31) / 256)).length)).sum ≤ x.2.kv.nframe))

/-- A step being filled: its rows and its requests. -/
structure Fill where
  rows : List Row := []
  reqs : List Request := []

/-- A request offered to a step: taken where its rows and its pages fit. -/
def State.offerTo (s : State) (f : Fill) (r : Request) : Fill :=
  let new := s.rowsFor r f.reqs.length f.rows.length
  if f.reqs.length ≥ 256 || f.rows.length + new.length > s.model.vocab.stepRows ||
      !s.framesFit (r.slot :: f.reqs.map Request.slot) then f
  else { rows := f.rows ++ new, reqs := f.reqs ++ [r] }

/-! ### Step descriptors and messages (R404, R433, R436) -/

/-- One row of a descriptor. -/
def rowBytes (r : Row) : List Byte :=
  leBytes r.token 4 ++ leBytes r.pos 4 ++ leBytes r.store 4 ++ leBytes r.slot 2 ++ leBytes r.b 1 ++
    leBytes ((if r.sample then 1 else 0) + (if r.tree then 2 else 0)) 1 ++ leBytes r.parent 4 ++ leBytes r.adapter 1 ++
    leBytes r.tenant 1 ++ leBytes 0 10

/-- A step's descriptor: header and rows. -/
def descBytes (st : Step) : List Byte :=
  leBytes st.num 4 ++ leBytes st.owner 4 ++ leBytes st.slots.length 4 ++ leBytes st.rows.length 4 ++ leBytes 0 48 ++
    st.rows.flatMap rowBytes

/-- Stack address of descriptor `d`. -/
def descAddr (d : Nat) : Nat := 0x300000180 + d * 0x28800

/-- Bytes as raw records. -/
def rawRecords (bs : List Byte) : List Byte :=
  (pieces 64 bs.length bs).flatMap (fun p => storedRecord (rawBody (p ++ List.replicate (64 - p.length) 0)))

/-- The lowest descriptor that no open step uses. -/
def State.descFree (s : State) : Option Nat :=
  (List.range 1024).find? (fun d => !s.serve.steps.any (fun (x : Step) => x.desc == d))

/-- The ordinals of the other engines of the group. -/
def State.others (s : State) : List Nat := (List.range s.model.nengine).filter (fun k => k ≠ s.model.ordinal)

/-- A message of step `num` to an engine of the group, in as many messages as its records need (log 28). -/
def State.sendStepMsg (s : State) (k typ num : Nat) (bs : List Byte) : State :=
  let n := if s.fab.encap = 1 then 56 else 112
  let recs := rawRecords bs
  (pieces (72 * n) recs.length recs).foldl (fun (t : State) b =>
    t.aveSend (t.engineOf k) typ t.liveLinks { aux := num } b) s

/-- A step sent to every other engine of the group. -/
def State.sendStep (s : State) (st : Step) : State :=
  s.others.foldl (fun (t : State) k => t.sendStepMsg k 4 st.num (descBytes st)) s

/-- The log record of a step: the deputy is to acknowledge it; without a valid deputy it is written to the checkpoint region
(R35, R36). Answers the record's number and whether it is acknowledged. -/
def State.logRecord (s : State) : State × Nat × Bool :=
  let n := s.core.logNext
  if s.core.depValid then ({ s with core := { s.core with logNext := n + 1 } }, n, false)
  else (({ s with core := { s.core with logNext := n + 1 } }).ckptWrite n, n, true)

/-- STEP_SEND: the owner fills a step with the requests that are ready, writes its descriptor and its log record, and sends it
to the group (R403, R404). Its number keeps the steps of a group's owners apart: DESIGN CHOICE (log 30). -/
def State.stepSend (s : State) : State :=
  if !s.inState [.serving, .draining] || !s.recov.unhosted.isEmpty then s
  else
    let f := s.offerOrder.foldl (fun (a : Fill) r => s.offerTo a r) ({} : Fill)
    match s.descFree with
    | none => s
    | some d =>
      if f.reqs.isEmpty then s
      else
        let num := (s.serve.nextStep * max 1 s.model.nengine + s.model.ordinal) % 2 ^ 32
        let l := s.logRecord
        let st : Step := {
          num := num
          owner := s.model.ordinal
          desc := d
          rows := f.rows
          reqs := f.reqs.map (fun (r : Request) => (r.ring, r.entry))
          lens := f.reqs.map (fun (r : Request) => (r.slot, (s.slot r.slot).len))
          need := f.rows.length
          record := l.2.1
          logAcked := l.2.2
          nan := (List.range f.rows.length).filter (fun i =>
            (f.rows[i]?).any (fun (w : Row) => decide (w.token ≥ s.model.vocab.nvocab))) }
        let s1 := { l.1 with serve := { l.1.serve with
          nextStep := l.1.serve.nextStep + 1
          steps := l.1.serve.steps ++ [st]
          reqs := l.1.serve.reqs.map (fun (r : Request) =>
            if f.reqs.any (fun (q : Request) => q.slot == r.slot) then { r with inStep := some num } else r) } }
        (s1.rawWrite (descAddr d) 0 (descBytes st)).sendStep st

/-- STEP_SEND. -/
def execStepSend (s : State) : Out := .next s.stepSend

end Sys2Proof.Machine
end

