-- ==== Sys2Proof/Machine/Commit.lean ====
section
/-!
DEFINITION. Sampling, the commit point and the end of a step: the rows SAMPLE, STEP_DONE_SEND, COMMIT_DECISION, COMMIT, STEP_ABANDON,
DRAIN_LIMIT_EXPIRY (10 R313, R326, R328; 13 R385, R386, R405 to R419; 19 R560, R561).
-/
namespace Sys2Proof.Machine

/-! ### The sampling procedure (R412, R413) -/

/-- The draw u(n) of R412. -/
def drawAt (seed : Word) (n : Nat) : F32 :=
  f32Round false ((rndWord (mix (seed ^^^ 0x53414D5000000000#64)) (BitVec.ofNat 64 n)).toNat / 2 ^ 40) (-24) false

/-- The logits after NaN removal and penalty. -/
def penalised (r : Request) (hist : List Nat) (z : List F32) : List F32 :=
  let recent := hist.drop (hist.length - r.repWindow)
  z.zipIdx.map (fun x =>
    let v : F32 := if f32IsNan x.1 then 0xFF800000 else x.1
    if recent.contains x.2 then penalise r.repPenalty v else v)

/-- The index that the sorted candidates and the draw choose; none where the procedure reaches none. -/
def chooseIndex (topP u : F32) (cs : List Cand) : Option Nat :=
  let m := (cs.headD (0, 0)).2
  let sums := scum (cs.map (fun c => f32Exp (f32Sub c.2 m)))
  let total := sums.getLastD 0
  match sums.findIdx? (fun v => f32Ge v (f32Mul topP total)) with
  | none => none
  | some j =>
    let t := f32Mul u (sums.getD j 0)
    (((sums.take (j + 1)).findIdx? (fun v => f32Gt v t)).bind (fun k => cs[k]?)).map Prod.fst

/-- sample(z, n) of R413. -/
def sampleToken (r : Request) (hist : List Nat) (z : List F32) (n : Nat) : Nat :=
  let zs := penalised r hist z
  if r.method = 0 then ((bestCand (cands zs)).map Prod.fst).getD 0xFFFFFFFF
  else
    let k := if r.topK = 0 then 256 else r.topK
    let cs := topK k (cands (zs.map (fun v => f32Div v r.temperature)))
    let all := cs ++ List.replicate (k - cs.length) (0xFFFFFFFF, 0xFF800000)
    (chooseIndex r.topP (drawAt r.seed n) all).getD (Config.noToken r.seed n)

/-! ### SAMPLE (R405, R416, R417) -/

/-- A LOGITS event: row, first token, SRAM offset. -/
def logitsPost (v : Word) : Option (Nat × Nat × Nat) :=
  if v.toNat / 2 ^ 56 = 2 then some (v.toNat / 2 ^ 44 % 4096, v.toNat / 2 ^ 24 % 2 ^ 20, v.toNat % 2 ^ 24) else none

/-- Whether a report is a LOGITS event. -/
def Report.isLogits : Report → Bool
  | .post v => (logitsPost v).isSome
  | _ => false

/-- The ranges of logits that the parcels running a step have posted for a row: first token and values. -/
def State.logitRanges (s : State) (num row : Nat) : List (Nat × List F32) :=
  (s.parcels.filter (fun x => x.2.swp.step.toNat % 2 ^ 32 == num)).flatMap (fun x => x.2.reports.filterMap (fun (q : Report) =>
    match q with
    | .post v => (match logitsPost v with
      | some (r, t, o) =>
        if r = row then some (t, words32 (x.2.read (o + 4) (4 * (leNat (x.2.read o 4))))) else none
      | none => none)
    | _ => none))

/-- Ranges joined from token `m.length` on. -/
def joinRanges : Nat → List F32 → List (Nat × List F32) → List F32
  | 0, z, _ => z
  | n + 1, z, rs =>
    match rs.find? (fun x => x.1 == z.length && !x.2.isEmpty) with
    | some x => joinRanges n (z ++ x.2) rs
    | none => z

/-- The whole vector of a row's logits, once posts cover the vocabulary. -/
def State.logitsOf (s : State) (num row : Nat) : Option (List F32) :=
  let rs := s.logitRanges num row
  let z := joinRanges rs.length [] rs
  if z.length ≥ s.model.vocab.nvocab then some (z.take s.model.vocab.nvocab) else none

/-- The candidates on the way from the last chain row to a row, the row's own last. -/
def pathTokens (rows : List Row) : Nat → Nat → List Nat
  | 0, _ => []
  | k + 1, i =>
    match rows[i]? with
    | some w => if w.tree then pathTokens rows k w.parent ++ [w.token] else []
    | none => []

/-- The request of this owner that uses a slot. -/
def State.requestAt (s : State) (slot : Nat) : Option Request := s.serve.reqs.find? (fun (r : Request) => r.slot == slot)

/-- The prompt as far as it is known once a step has run: the committed part and the chunk that the step feeds. -/
def promptWith (st : Step) (r : Request) : List Nat :=
  if r.fed < r.promptLen then
    r.prompt ++ (st.rows.filter (fun (w : Row) => w.slot == r.slot && !w.tree)).map Row.token
  else r.prompt

/-- A SAMPLE row's token; none where its logits are all −∞. -/
def State.rowToken (s : State) (st : Step) (i : Nat) (w : Row) (z : List F32) : Option Nat :=
  if z.all (fun v => f32IsNan v || v == 0xFF800000) then none
  else match (if st.owner = s.model.ordinal then s.requestAt w.slot else none) with
    | none => some (Config.remoteToken st.num i)
    | some r =>
      let path := pathTokens st.rows 17 i
      some (sampleToken r (promptWith st r ++ r.out ++ path) z (r.out.length + path.length))

/-- The step changed. -/
def State.modStep (s : State) (num : Nat) (f : Step → Step) : State :=
  { s with serve := { s.serve with steps := s.serve.steps.map (fun (x : Step) => if x.num = num then f x else x) } }

/-- The LOGITS events of the parcels running a step taken from their queues. -/
def State.dropLogits (s : State) (num : Nat) : State :=
  { s with parcels := s.parcels.map (fun x =>
    if x.2.swp.step.toNat % 2 ^ 32 = num then
      (x.1, { x.2 with reports := x.2.reports.filter (fun (q : Report) => !q.isLogits) }) else x) }

/-- SAMPLE: the token of every SAMPLE row, once the logits of each are posted whole. -/
def State.sample (s : State) (num : Nat) : State :=
  match s.stepOf num with
  | none => s
  | some st =>
    let rows := (st.rows.zipIdx.filter (fun x => x.1.sample)).map (fun x => (x.2, x.1, s.logitsOf num x.2))
    if st.committed || rows.isEmpty || rows.any (fun x => x.2.2.isNone) then s
    else
      let toks := rows.map (fun x => (x.1, s.rowToken st x.1 x.2.1 (x.2.2.getD [])))
      (s.dropLogits num).modStep num (fun x => { x with
        samples := toks.map (fun t => (t.1, t.2.getD 0))
        nan := x.nan ++ (toks.filter (fun t => t.2.isNone)).map Prod.fst })

/-- SAMPLE. -/
def execSample (step : BitVec 32) (s : State) : Out := .next (s.sample step.toNat)

/-! ### STEP_DONE (R311, R406) -/

/-- Whether a parcel's report concerns a step: a data fault of it, or an exception while it ran it. -/
def reportOf (num step : Nat) : Report → Bool
  | .exception .. => step % 2 ^ 32 == num
  | .data _ n => n % 2 ^ 32 == num
  | _ => false

/-- The reports of a step, with the key of their parcel. -/
def State.stepReports (s : State) (num : Nat) : List (Nat × Report) :=
  s.parcels.flatMap (fun x => (x.2.reports.filter (reportOf num x.2.swp.step.toNat)).map (fun r => (x.1, r)))

/-- Whether every SAMPLE row of a step has its token. -/
def Step.sampled (st : Step) : Bool :=
  st.rows.zipIdx.all (fun x => !x.1.sample || (st.samples.lookup x.2).isSome)

/-- Whether a fault of a step is known here, so that it is to be replayed before it can commit (R310, R411). -/
def State.faulty (s : State) (st : Step) : Bool := st.spoiled || !(s.stepReports st.num).isEmpty

/-- STEP_DONE_SEND: sent to the owner once every home write of the step's rows and the step's log record are acknowledged; an
engine alone in its group samples first. -/
def State.stepDoneSend (s : State) (num : Nat) : State :=
  match s.stepOf num with
  | none => s
  | some st =>
    let homes := s.parcels.all (fun x => x.2.kv.homeWrites.all (fun (h : HomeCount) =>
      h.step ≠ num || h.run ≠ s.attempt num || h.n == 0))
    if st.committed || st.doneSent || s.faulty st || st.rows.length < st.need || !homes || !st.logAcked ||
        !(st.sampled || (s.model.nengine > 1 && st.samples.isEmpty)) then s
    else
      let s1 := s.modStep num (fun x => { x with doneSent := true })
      if st.owner = s.model.ordinal then s1.modStep num (fun x => { x with doneFrom := x.doneFrom ++ [st.owner] })
      else s1.sendStepMsg st.owner 5 num (Config.stepDoneBody num st.samples)

/-- STEP_DONE_SEND. -/
def execStepDoneSend (step : BitVec 32) (s : State) : Out := .next (s.stepDoneSend step.toNat)

/-! ### The decision (R407, R408, R417) -/

/-- The reason a delivered token ends a request, with `n` tokens delivered in all: an end token, a stop token, MAX_TOKENS,
MAX_CONTEXT. DEDUCED (log 32): where several hold, a token's own reason comes first. -/
def State.endReason (s : State) (r : Request) (y n : Nat) : Option Nat :=
  if r.flags / 4 % 2 = 1 && s.model.vocab.ends.contains y then some 1
  else if r.stops.contains y then some 2
  else if n ≥ r.maxTokens then some 0
  else if r.base + r.promptLen + n ≥ s.model.vocab.maxContext then some 3
  else none

/-- What the walk of R417 finds: the tokens delivered, the reason that ended the request, and whether it met a row without a
token. -/
structure Walk where
  toks : List Nat := []
  reason : Option Nat := none
  bad : Bool := false
  last : Nat := 0

/-- walk(node, n) of R417 from row `i`, `n` tokens being delivered before. -/
def State.walk (s : State) (st : Step) (r : Request) : Nat → Nat → Nat → Walk
  | 0, i, _ => { last := i }
  | k + 1, i, n =>
    if st.nan.contains i then { bad := true, last := i }
    else match st.samples.lookup i with
      | none => { bad := true, last := i }
      | some y =>
        match s.endReason r y (n + 1) with
        | some e => { toks := [y], reason := some e, last := i }
        | none =>
          match st.rows.zipIdx.find? (fun x => x.1.tree && x.1.slot == r.slot && x.1.parent == i && x.1.token == y) with
          | none => { toks := [y], last := i }
          | some x =>
            let w := s.walk st r k x.2 (n + 1)
            { w with toks := y :: w.toks }

/-- A request's chain rows in a step, with their numbers. -/
def Step.chainRows (st : Step) (slot : Nat) : List (Row × Nat) :=
  st.rows.zipIdx.filter (fun x => x.1.slot == slot && !x.1.tree)

/-- What the walk of a request's rows finds; a chunk that does not end the prompt delivers nothing. -/
def State.walkRequest (s : State) (st : Step) (r : Request) : Walk :=
  let ch := st.chainRows r.slot
  if ch.any (fun x => st.nan.contains x.2 && !x.1.sample) then { bad := true }
  else match ch.find? (fun x => x.1.sample) with
    | none => {}
    | some x => if x.1.token ≥ s.model.vocab.nvocab then { bad := true } else s.walk st r 18 x.2 r.out.length

/-- A completion that comes before any result of the step: cancel, deadline, revocation (R408). -/
def State.earlyEnd (s : State) (r : Request) (tc : Nat) : Option Nat :=
  if r.cancel.any (fun c => decide (c < tc) && (r.deadline == 0 || decide (c < r.deadline))) then some stCancelled
  else if r.deadline ≠ 0 && r.deadline ≤ tc then some stDeadline
  else if (s.model.adapters.lookup r.adapter).any Adapter.released ||
      !(Sparse.get ({} : Tenant) s.serve.tenants r.tenant).enabled then some stRevoked
  else r.end_

/-- The outcome of one request of a step at T_c (R408). -/
def State.outcomeOf (s : State) (st : Step) (tc : Nat) (r : Request) : Outcome :=
  let l := st.lenOf r.slot
  let none_ (status : Nat) : Outcome := {
    ring := r.ring
    entry := r.entry
    slot := r.slot
    tokens := []
    len := l
    status := some status
    reason := 0 }
  match s.earlyEnd r tc with
  | some status => none_ status
  | none =>
    let w := s.walkRequest st r
    if w.bad then none_ stMalformed
    else {
      ring := r.ring
      entry := r.entry
      slot := r.slot
      tokens := w.toks
      len := l + (st.chainRows r.slot).length
      status := w.reason.map (fun _ => stComplete)
      reason := w.reason.getD 0 }

/-- The requests of a step that are still in it. -/
def State.stepRequests (s : State) (st : Step) : List Request :=
  st.reqs.filterMap (fun k => s.serve.reqs.find? (fun (r : Request) =>
    r.ring == k.1 && r.entry == k.2 && r.inStep == some st.num))

/-- COMMIT_DECISION: with the last STEP_DONE the owner reads the cancel queues, takes T_c, decides every request, and writes its commit
record (R406; without a valid deputy to the checkpoint region, R36). -/
def State.commitDecision (s : State) (num : Nat) : State :=
  match s.stepOf num with
  | none => s
  | some st =>
    if st.owner ≠ s.model.ordinal || st.committed || st.tc.isSome || s.faulty st || !st.sampled ||
        !(List.range (max 1 s.model.nengine)).all (fun k => st.doneFrom.contains k) then s
    else
      let s1 := s.readCancels
      let tc := s.time.ns
      let l := s1.logRecord
      l.1.modStep num (fun x => { x with
        tc := some tc
        outcomes := (s1.stepRequests st).map (s1.outcomeOf st tc)
        commitRec := some l.2.1
        commitAcked := l.2.2 })

/-- COMMIT_DECISION. -/
def execCommitDecision (step : BitVec 32) (s : State) : Out := .next (s.commitDecision step.toNat)

/-! ### The commit point (R313, R326, R328, R398, R406, R419) -/

/-- The handle of a prefix (R418). -/
def State.handleOf (s : State) (tenant slot adapter : Nat) (toks : List Nat) : Word :=
  let hi := tenant % 16 * 2 ^ 41 + s.model.loads % 4096 * 2 ^ 29 + (s.slot slot).gen % 65536 * 2 ^ 13 + slot % 8192
  BitVec.ofNat 64 (hi * 2 ^ 19 + (Config.handleCheck s.fab.engineId hi toks adapter s.model.secret).toNat)

/-- A request's prompt pinned: a slot of its own that refers to the prompt's pages (R326, R419). Answers the handle, 0 where the
tenant's quota or the slots are used up. -/
def State.pin (s : State) (r : Request) : State × Word :=
  let p := r.base + r.promptLen
  let held := (s.serve.prefixes.filter (fun (x : Prefix) => x.tenant == r.tenant && !x.dropping)).length
  if held ≥ (Sparse.get ({} : Tenant) s.serve.tenants r.tenant).maxPins then (s, 0)
  else match s.slotFree with
    | none => (s, 0)
    | some k =>
      let h := s.handleOf r.tenant k r.adapter r.prompt
      let s1 := s.setSlot k { s.slot k with used := true, len := p, from_ := none }
      let x : Prefix := { slot := k, tenant := r.tenant, adapter := r.adapter, tokens := r.prompt, handle := h }
      ({ s1 with serve := { s1.serve with prefixes := s1.serve.prefixes ++ [x] } }.sharePages r.slot k p, h)

/-- Whether a request's prompt is pinned at this commit. -/
def pinDue (st : Step) (r : Request) (o : Outcome) : Bool :=
  r.flags / 2 % 2 == 1 && !r.pinned && decide (st.lenOf r.slot < r.base + r.promptLen) &&
    decide (r.base + r.promptLen ≤ o.len)

/-- The candidates of the tree's nodes after a decode step, from the row whose token was delivered last (R416): none after the
prompt's last chunk. -/
def State.candidates (s : State) (st : Step) (r : Request) : Sparse Nat :=
  if r.fed < r.promptLen then []
  else
    let w := s.walkRequest st r
    (treeNodes s.model.vocab.tree r.spec).map (fun n => (n, Config.candidate st.num w.last n s.model.vocab.nvocab))

/-- A request after the commit of its rows, before its output is written. -/
def State.advance (s : State) (st : Step) (r : Request) (o : Outcome) : Request :=
  let c := st.chainRows r.slot
  let fedNow := if r.fed < r.promptLen && o.len > st.lenOf r.slot then c.length else 0
  { r with
    fed := r.fed + fedNow
    prompt := r.prompt ++ (if fedNow = 0 then [] else c.map (fun x => x.1.token))
    out := r.out ++ o.tokens
    chain := if o.tokens.isEmpty then r.chain else o.tokens
    cands := if o.tokens.isEmpty then r.cands else s.candidates st r
    text := r.text ++ (if r.flags % 2 = 1 then o.tokens.flatMap s.tokenText else [])
    accepted := r.accepted + (o.tokens.length - 1)
    firstTime := if r.firstTime = 0 && !o.tokens.isEmpty then st.tc.getD 0 else r.firstTime
    inStep := none }

/-- A request replaced by its new record. -/
def State.putRequest (s : State) (r : Request) : State :=
  { s with serve := { s.serve with reqs := s.serve.reqs.map (fun (q : Request) =>
    if q.ring = r.ring && q.entry = r.entry then r else q) } }

/-- TOKENS counts in units of 256 (R422). -/
def State.countTokens (s : State) (n : Nat) : State :=
  let t := s.serve.tokensRest + n
  { s with serve := { s.serve with tokens := satAdd 32 s.serve.tokens (t / 256), tokensRest := t % 256 } }

/-- The part of a commit that precedes the output of a request: its record moves on, its prompt is pinned where that is due. -/
def State.commitRequest (s : State) (st : Step) (o : Outcome) : State × Option Word :=
  match s.requestAt o.slot with
  | none => (s, none)
  | some r =>
    let r1 := s.advance st r o
    if pinDue st r o then
      let a := s.pin r1
      (a.1.putRequest { r1 with pinned := true, prefixHandle := a.2 }, some a.2)
    else (s.putRequest r1, none)

/-- A request's output at a commit: token, text and prefix entries, then its completion (R397 to R399). -/
def State.writeOutput (s : State) (st : Step) (o : Outcome) (pinned : Option Word) : State :=
  match s.requestAt o.slot with
  | none => s
  | some r =>
    let a := s.putTokens r.to r.seq (r.out.length - o.tokens.length) st.num o.tokens
    let tx := emitText r.text
    let b := a.1.putText r.to a.2 st.num tx.1
    let c := match pinned with
      | none => b
      | some h => (b.1.putEntry r.to b.2 (outEntry r.id 0 5 (if h = 0 then stQuota else stOk) 0 0 (leBytes h.toNat 8) st.num
          b.2), b.2 + 1)
    let r1 := { r with seq := c.2, text := tx.2 }
    let s1 := (c.1.countTokens o.tokens.length).putRequest r1
    match o.status with
    | none => s1
    | some status => s1.complete r1 status o.reason (st.tc.getD 0) st.num

/-- The slots in use that were opened from a prefix. -/
def State.openedFrom (s : State) (x : Prefix) : List Slot :=
  (s.serve.slots.map Prod.snd).filter (fun (k : Slot) => k.used && k.from_ == some x.slot)

/-- The references of a released prefix dropped (R328). DESIGN CHOICE (log 135): to its partial last page only when every slot opened from
it has its copy, which its first step makes (R327). -/
def State.dropRefsOf (s : State) (x : Prefix) : State :=
  let p := (s.slot x.slot).len
  let due := (s.openedFrom x).any (fun (k : Slot) => k.len == p)
  s.mapKv (fun k => k.dropRefs x.slot (if due then p / 256 else 2 ^ 20))

/-- At a commit point the released prefixes drop their references; the slot of one that no slot refers to is free (R304, R328). -/
def State.dropPrefixes (s : State) : State :=
  let out := s.serve.prefixes.filter (fun (x : Prefix) => x.dropping)
  let gone := out.filter (fun (x : Prefix) => (s.openedFrom x).isEmpty)
  let s1 := out.foldl (fun (t : State) x => t.dropRefsOf x) s
  gone.foldl (fun (t : State) x => t.freeSlot x.slot)
    { s1 with serve := { s1.serve with prefixes := s1.serve.prefixes.filter (fun (x : Prefix) => !gone.contains x) } }

/-- What a COMMIT message says of a prefix pinned with it: its slot and its length, behind the entry of its request's slot (log 91). -/
def State.pinned (s : State) (h : Option Word) : List (Nat × Nat) :=
  match h.bind (fun w => if w = 0 then none else s.serve.prefixes.find? (fun (x : Prefix) => x.handle == w)) with
  | none => []
  | some x => [(x.slot, (s.slot x.slot).len)]

/-- COMMIT: the commit point of a step, its commit record being acknowledged (R406). The new lengths take effect, COMMIT goes to the
group, each request's output is written, and what was due at a commit point completes. -/
def State.commit (s : State) (num : Nat) : State :=
  match s.stepOf num with
  | none => s
  | some st =>
    if st.owner ≠ s.model.ordinal || st.committed || st.tc.isNone || !st.commitAcked || s.faulty st then s
    else
      let a := st.outcomes.foldl (fun (x : State × List (Outcome × Option Word)) o =>
        let r := x.1.commitRequest st o
        (r.1, x.2 ++ [(o, r.2)])) (s, [])
      let lens := st.outcomes.map (fun (o : Outcome) => (o.slot, o.len))
      let told := a.2.flatMap (fun x => (x.1.slot, x.1.len) :: a.1.pinned x.2)
      let s1 := (a.1.applyLens num lens).unlock (fun l => l.step == num)
      let s2 := s1.others.foldl (fun (t : State) k => t.sendStepMsg k 6 num (Config.commitBody num told)) s1
      let s3 := a.2.foldl (fun (t : State) o => t.writeOutput st o.1 o.2) s2
      ((s3.endStep num).completeWaiting (fun _ => true)).dropPrefixes

/-- COMMIT. -/
def execCommit (step : BitVec 32) (s : State) : Out := .next (s.commit step.toNat)

/-! ### Replay (R200, R235, R411, R561) -/

/-- What a parcel holds of a step discarded: staged rows, posted receives, held and spilled records; its flows are numbered
again as they were at PASS_START (log 23). -/
def ParcelState.discardStep (ps : ParcelState) (num : Nat) : ParcelState :=
  let mine := ps.swp.step.toNat % 2 ^ 32 == num
  let ps1 := { ps with
    kv := ps.kv.discardStep num
    lane := { ps.lane with
      store := ps.lane.store.filter (fun (h : HeldRec) => h.step ≠ num)
      spill := ps.lane.spill.filter (fun (h : SpillEnt) => h.step ≠ num) } }
  if !mine then ps1
  else
    let posted := ps1.lane.posted.map (fun (b : Posted) => (b.id, b.tk))
    ({ ps1 with lane := { ps1.lane with posted := [], sent := ps1.lane.passSent, received := ps1.lane.passReceived } }).completeAll
      posted

/-- A step's work discarded on the engine. -/
def State.discardStep (s : State) (num : Nat) : State :=
  { s with parcels := s.parcels.map (fun x => (x.1, x.2.discardStep num)) }

/-- The image fault of a report: cause and EPC (R200). An exception with FW = 1 and SRAM_UE are hardware faults. A full spill region has
no cause of R198: it counts as cause 16 (R294). -/
def imageFault : Report → Option (Nat × Nat)
  | .exception cause _ _ epc fw => if fw || cause = 12 then none else some (cause, epc)
  | .data .spill _ => some (16, 0)
  | _ => none

/-- Whether a report is a hardware fault of its parcel (R200, R545). -/
def hardFault : Report → Bool
  | .exception cause _ _ _ fw => fw || cause = 12
  | _ => false

/-- The reports of a step taken from the queues; data faults and repeated image faults are logged. -/
def State.takeReports (s : State) (num : Nat) (rs : List (Nat × Report)) : State :=
  let s1 := { s with parcels := s.parcels.map (fun x =>
    (x.1, { x.2 with reports := x.2.reports.filter (fun r => !reportOf num x.2.swp.step.toNat r) })) }
  rs.foldl (fun (t : State) r =>
    match r.2 with
    | .data .. => t.writeLog { code := 32, d := r.1 / 144, parcel := r.1 % 144 }
    | _ => t) s1

/-- Every request of a step completed at once with the status that is due to it; its rows are discarded and the step is over. -/
def State.failStep (s : State) (st : Step) (due : Request → Nat) : State :=
  let s1 := (s.stepRequests st).foldl (fun (t : State) r =>
    t.complete r (due r) 0 t.time.ns (Config.noStep t.serve.finished.length)) s
  (((s1.discardStep st.num).unlock (fun l => l.step == st.num)).endStep st.num).drainEnd

/-- A step that can only fail with `status` decided at once: a cancel, a deadline or a revocation comes first (R408); the engines of the
group are told that its slots keep their lengths. -/
def State.failDecided (s : State) (st : Step) (status : Nat) : State :=
  let s1 := s.readCancels
  let s2 := s1.failStep st (fun r => (s1.earlyEnd r s1.time.ns).getD status)
  s2.others.foldl (fun (t : State) k => t.sendStepMsg k 6 st.num (Config.commitBody st.num st.lens)) s2

/-- The end of an interruption: its length is recorded; beyond 30 µs it is RESUME_LATE (R561). -/
def State.resumed (s : State) : State :=
  match s.recov.faultSince with
  | none => s
  | some t =>
    let d := s.time.ns - t
    let s1 := { s with recov := { s.recov with faultSince := none, maxResume := max s.recov.maxResume (min 65535 (d / 100)) } }
    if d > 30000 then s1.event { code := 52 } else s1

/-- A step ready to run again from PASS_START, with the same number, rows and descriptor. -/
def Step.again (st : Step) (vocab : Nat) (image : List (Nat × Nat)) : Step :=
  { st with
    doneFrom := []
    doneSent := false
    samples := []
    nan := (List.range st.rows.length).filter (fun i => (st.rows[i]?).any (fun (w : Row) => decide (w.token ≥ vocab)))
    tc := none
    outcomes := []
    commitRec := none
    commitAcked := false
    image := image
    spoiled := false
    replays := st.replays + 1 }

/-- Whether 100 ms have passed since the first PASS_START of a step (R411). -/
def State.overdue (s : State) (st : Step) : Bool := st.since ≠ 0 && decide (st.since + 100000000 ≤ s.time.ns)

/-- STEP_ABANDON: 100 ms after its first PASS_START a step not committed is given up, at its owner with its requests, and at another engine
with the rows staged there (R411). -/
def execStepAbandon (step : BitVec 32) (s : State) : Out :=
  .next (match s.stepOf step.toNat with
    | none => s
    | some st => if st.committed || !s.overdue st then s else s.failStep st (fun _ => stRevoked))

/-- DRAIN_LIMIT_EXPIRY: the requests in flight complete RESOURCE_REVOKED, those in a step at its commit point; the engine
enters LOADED (R385, R386). DEDUCED (log 33): it does so at the expiry. -/
def execDrainLimitExpiry (s : State) : Out :=
  .next (
    if s.core.st ≠ .draining || !s.core.drainMs.any (fun ms => decide (s.core.drainFrom + 1000000 * ms ≤ s.time.ns)) then s
    else
      let s1 := { s with
        core := { s.core with st := .loaded, drainMs := none }
        serve := { s.serve with reqs := s.serve.reqs.map (fun (r : Request) =>
          { r with end_ := some (r.end_.getD stRevoked) }) } }
      s1.completeWaiting (fun _ => true))

end Sys2Proof.Machine
end

