-- ==== Sys2Proof/Machine/Power.lean ====
section
/-!
DEFINITION. Power budgets, headroom and switching on (15 R455 to R457, R466, R470, R473, R478, R479).
-/
namespace Sys2Proof.Machine

/-! ### Voltages and budgets (R455 to R457) -/

/-- The voltage code of a parcel for a clock mode (R457): its calibrated minimum for that mode's PCLK plus 20 mV, at most code
60. A parcel whose ÷3 voltage would be higher runs ÷4 in SURPLUS (R477). -/
def ParcelHealth.vCode (h : ParcelHealth) (mode : Nat) : Nat :=
  match mode with
  | 1 => if h.vmin3 + 4 > 60 then min 60 (h.vmin4 + 4) else h.vmin3 + 4
  | 2 => min 60 (h.vmin5 + 4)
  | 3 => min 60 (h.vmin8 + 4)
  | _ => min 60 (h.vmin4 + 4)

/-- Millivolts of a code (R456). -/
def codeMv (c : Nat) : Nat := 550 + 5 * c

/-- RATION times V of a parcel in a clock mode, in units of 10 µW. -/
def ParcelState.load (ps : ParcelState) (mode : Nat) : Nat := ps.meter.ration * codeMv (ps.health.vCode mode)

/-- Parcels of a district that are powered. -/
def State.poweredPids (s : State) (d : Nat) : List Pid :=
  ((List.range 144).map (fun p => pidOf (144 * d + p))).filter (fun p => (s.parcel p).reg.on)

/-- The sum of RATION times V over some parcels, in units of 10 µW. -/
def State.loadOf (s : State) (ps : List Pid) (mode : Nat) : Nat := (ps.map (fun p => (s.parcel p).load mode)).sum

/-- i_fb in tenths of an ampere for a sum of loads (R455). -/
def feederBudget (load : Nat) : Nat := (load + 900000) / 16200

/-- Whether i_fb is at most 190 A. -/
def budgetOk (load : Nat) : Bool := load + 900000 ≤ 190 * 162000

/-! ### Headroom (R466, R478) -/

/-- cap_eff in watts (R466). -/
def State.capEff (s : State) : Nat :=
  min (min s.pwr.cap (5 * s.pwr.vin))
    (min (if s.core.air then 2400 else s.pwr.cap) (if s.cool.reversed then 12000 else s.pwr.cap))

/-- P_on in milliwatts for a sum of loads, and whether the district domain comes up too. -/
def pOn (load : Nat) (domain : Bool) : Nat := ((load + (if domain then 900000 else 0)) * 1000 + 85499) / 85500

/-- Whether the headroom test passes for P_on. -/
def State.headroomOk (s : State) (mw : Nat) : Bool :=
  mw + 1000 * s.pwr.pmax + (s.pwr.reserves.map Reserve.mw).sum ≤ 1000 * s.capEff

/-- The parcels that a district powers when it is switched on: those that host work, else its 128 lowest-numbered healthy ones
(R470, R598). -/
def State.toPower (s : State) (d : Nat) : List Pid :=
  let all_ := (List.range 144).map (fun p => pidOf (144 * d + p))
  let work := all_.filter (fun p => (s.logicalAt p).isSome)
  if work.isEmpty then
    (all_.filter (fun p => !(s.parcel p).health.bollard && !(s.parcel p).health.retired)).take 128
  else work

/-- Whether switching on brings up the district domain: from DARK or RETAIN. -/
def PSt.domainOff (st : PSt) : Bool := st == .dark || st == .retain || st == .tripped

/-- P_on of a switch-on of district `d` to its target: parcels powered up, or those whose PCLK is ungated. -/
def State.switchLoad (s : State) (d : Nat) : Nat :=
  let x := s.dist d
  let ps := if x.st.domainOff then s.toPower d else s.poweredPids d
  pOn (s.loadOf ps x.mode) x.st.domainOff

/-- A switch-on begun (R479): the transition is in progress until it completes. -/
def State.startSwitch (s : State) (d : Nat) (target : PSt) (reply : Option ReplyTo) : State :=
  s.modDist d (fun x => { x with
    busy := true
    target := target
    replyTo := reply
    switchOn := some { target := target, since := s.time.ns } })

/-- A district in SPARE moved to ACTIVE by the registry, which places work there (R473): it takes the headroom test. -/
def State.activate (s : State) (d : Nat) : State :=
  if (s.dist d).st = .spare && !(s.dist d).busy then
    (s.startSwitch d .active none).modDist d (fun x => { x with granted := true })
  else s

/-- A district that the registry took from SPARE goes back when the work leaves (R473). -/
def DistState.workLeft (x : DistState) : DistState :=
  if !x.granted then x
  else if x.busy then { x with granted := false, busy := false, switchOn := none }
  else { x with granted := false, st := if x.st = .active then .spare else x.st }

/-- A parcel whose regulator is to ramp: all its phases are in service, and its soft start counts as in progress from the passing test on
(R479; log 76). -/
def ParcelState.ramping (ps : ParcelState) : ParcelState := { ps with reg := { ps.reg with ramp := true, phOk := 31 } }

/-- A parcel powered: its regulator is on at the voltage of the clock mode, all phases in service (R456, R457). -/
def ParcelState.powered (ps : ParcelState) (mode : Nat) : ParcelState :=
  { ps with reg := { ps.reg with
    on := true
    ramp := false
    ilim := false
    ctrlFail := false
    clamp := false
    phOk := if ps.reg.on || ps.reg.ramp then ps.reg.phOk else 31
    vset := ps.health.vCode mode } }

end Sys2Proof.Machine
end

