-- ==== Sys2Proof/Machine/Pass.lean ====
section
/-!
DEFINITION. Step messages from other engines, and the pass boundary: the rows STEP_DONE, COMMIT_MESSAGE and PASS_START
(01 R45, R46; 06 R192, R200; 08 R253; 09 R277, R287, R298; 11 R353 to R356; 13 R404, R406).
-/
namespace Sys2Proof.Machine

/-! ### Messages of a step (R404, R406, R411, R433) -/

/-- The payload bytes of a message's raw records. -/
def payloadOf (m : AveIn) : List Byte :=
  (aveRecords m.hdr.nrec.toNat m.body).flatMap (fun r => (r.drop 4).take 64)

/-- A row of a descriptor read. -/
def rowOf (b : List Byte) : Row :=
  let flags := entField b 15 1
  { token := entField b 0 4
    pos := entField b 4 4
    store := entField b 8 4
    slot := entField b 12 2
    b := entField b 14 1
    sample := flags % 2 = 1
    tree := flags / 2 % 2 = 1
    parent := entField b 16 4
    adapter := entField b 20 1
    tenant := entField b 21 1 }

/-- Whole rows of some descriptor bytes. -/
def rowsOf (b : List Byte) : List Row := (chunks 32 (b.length / 32) b).map rowOf

/-- Committed lengths of a step's slots, read from where their first chain row is staged. -/
def rowLens (rows : List Row) : List (Nat × Nat) :=
  ((rows.map Row.slot).eraseDups).map (fun k =>
    (k, ((rows.filter (fun (w : Row) => w.slot == k && !w.tree)).map Row.store).foldl min 0xFFFFFFFF))

/-- A slot that a step of another owner uses at committed length `len`: where this engine has it at another length it is begun anew, and
for a length above 0 opened from a prefix of that length. Which prefix, the step does not say: it is free (log 91). -/
def State.beginSlot (s : State) (num slot len : Nat) : State :=
  if len ≠ 0 && (s.slot slot).len = len then s
  else
    let s1 := (s.mapKv (fun k => k.dropSlot slot)).setSlot slot { s.slot slot with len := len, from_ := none }
    let f := Config.openedFrom num slot
    if len = 0 || (s.slot f).len ≠ len || f = slot then s1 else s1.openPages slot f

/-- A step whose descriptor is complete: it is written, and logged; the slots it begins are begun. -/
def State.beginStep (s : State) (num : Nat) : State :=
  match s.stepOf num with
  | none => s
  | some st =>
    if st.rows.length < st.need then s
    else
      let l := s.logRecord
      let lens := rowLens st.rows
      let s1 := lens.foldl (fun (t : State) x => t.beginSlot num x.1 x.2) l.1
      (s1.modStep num (fun y => { y with lens := lens, record := l.2.1, logAcked := l.2.2 })).rawWrite (descAddr st.desc) 0
        (descBytes st)

/-- STEP_DONE: an engine of the group is done with a step; the one that samples sends its tokens. -/
def execStepDone (m : AveIn) (b : StepDoneBody) (s : State) : Out :=
  .next (
    let a := s.aveTake 5 m
    if !a.2 then a.1
    else
      let k := a.1.others.filter (fun o => a.1.engineOf o == m.hdr.srcE.toNat)
      a.1.modStep m.hdr.aux.toNat (fun x =>
        if x.owner = a.1.model.ordinal && !x.committed then
          { x with doneFrom := x.doneFrom ++ k, samples := x.samples ++ b.toks }
        else x))

/-- COMMIT_MESSAGE: the new length of each slot of a step of another owner; COMMIT_APPLY applies them. -/
def execCommitMessage (m : AveIn) (lens : List (Nat × Nat)) (s : State) : Out :=
  .next (
    let a := s.aveTake 6 m
    if !a.2 then a.1
    else a.1.modStep m.hdr.aux.toNat (fun x =>
      if x.owner = a.1.model.ordinal || x.committed then x
      else { x with
        committed := true
        outcomes := lens.map (fun l => {
          ring := 0
          entry := 0
          slot := l.1
          tokens := []
          len := l.2
          status := none
          reason := 0 }) }))

/-! ### The pass boundary (R353 to R355) -/

/-- A staged entry of the lot map: the physical lot it names where it is valid. -/
def ParcelState.stagedEntry (ps : ParcelState) (i : Nat) : Option Nat :=
  let b := (Sparse.get 0 ps.mapStaged i).toNat
  if b ≥ 128 then some (b % 32) else none

/-- Whether the staged map is refused: a lot above 17, a lot named twice, or a stale lot (R353). -/
def ParcelState.stagedBad (ps : ParcelState) : Bool :=
  let ls := (List.range 16).filterMap ps.stagedEntry
  ls.any (fun l => l > 17) || ls.length ≠ ls.eraseDups.length || ls.any (fun l => (ps.lot l).stale)

/-- The staged map copied at the pass boundary, or refused; answers whether it was refused. -/
def ParcelState.copyMap (ps : ParcelState) : ParcelState × Bool :=
  if !ps.mapArm then (ps, false)
  else if ps.stagedBad then ({ ps with mapArm := false, mapBad := true }, true)
  else ({ ps with map := ps.mapStaged, mapArm := false }, false)

/-- Whether every lot that the lot map section names for a layer is mapped and not stale, once its parcel has copied an armed map (R355). -/
def State.layerMapped (s : State) (layer : Nat) : Bool :=
  (s.model.lots.filter (fun (e : LotEnt) => e.layer == layer)).all (fun e =>
    (s.net.place.lookup e.lp).any (fun p =>
      let ps := ((s.parcel p).copyMap).1
      (ps.mapEntry e.lot).any (fun l => !(ps.lot l).stale)))

/-- The layers that run streamed from this pass boundary on: declared or set so, kept so by a rewrite, or with a lot that is
not mapped (R355). -/
def State.streamedNow (s : State) : List Nat :=
  (s.model.layers.filter (fun (l : LayerEnt) =>
    ((s.model.hostMode.lookup l.index).getD l.streamed) || s.model.forced.contains l.index ||
      !s.layerMapped l.index)).map LayerEnt.index

/-- The residency bitmap for a pass in which the layers `on` run streamed (R354). -/
def State.residencyBitmap (s : State) (on : List Nat) : List Byte :=
  let streams (i : Nat) : Bool := (s.model.layers[i]?).any (fun (l : LayerEnt) => on.contains l.index)
  (List.range 8192).map (fun k =>
    BitVec.ofNat 8 (((List.range 8).filter (fun j => streams (8 * k + j))).map (fun j => 2 ^ j)).sum)

/-- A parcel as its model leaves it; `erase` says that its cells are reset to level 0 (R362, R559). -/
def ParcelState.unloaded (ps : ParcelState) (erase : Bool) : ParcelState :=
  { ps with
    swp := { inReset := true, cycle := ps.swp.cycle }
    cls := []
    win := []
    kv := {}
    map := []
    mapStaged := []
    mapArm := false
    lane := {}
    tokens := []
    lq := []
    sq := []
    kapq := []
    reports := []
    meter := { ps.meter with held := [], beats := [] }
    dme := { queue := [], exc := ps.dme.exc, dmmDone := ps.dme.dmmDone, dmgDone := ps.dme.dmgDone, cjDone := ps.dme.cjDone
             active := ps.dme.active, opqStall := ps.dme.opqStall, tileStall := ps.dme.tileStall }
    rtr := { ps.rtr with resv := [], resvNext := none }
    lots := ps.lots.map (fun x => (x.1, { x.2.flushed with
      cells := if erase then [] else x.2.cells
      segment := if erase then none else x.2.segment })) }

/-- A parcel that gives up its logical parcel. A fenced one keeps its registers; a cover's regulator is switched off (R559). -/
def ParcelState.released (ps : ParcelState) : ParcelState :=
  if ps.health.bollard then { ps with kv := {}, map := [], mapArm := false }
  else
    let x := ps.unloaded false
    if ps.health.cover then
      { x.unpowered false with rtr := x.rtr, health := { x.health with cover := false } }
    else x

/-- Parcel `q` takes over what `p` kept for its logical parcel: the KV bookkeeping, whose homes and tables are in the stacks, and
the record counts of its flows (R302, R307, R556). -/
def State.takeOver (s : State) (p q : Pid) : State :=
  if p = q then s
  else
    let a := s.parcel p
    (s.modParcel q (fun ps => { ps with
      kv := { a.kv.loseFrames with cfg := ps.kv.cfg }
      lane := { ps.lane with sent := a.lane.sent, received := a.lane.received } })).setParcel p a.released

/-- Districts that the registry took from SPARE and that neither hold work under placement `m` nor are to take some go back (R473). -/
def State.giveBack (s : State) (m : Sparse Pid) : State :=
  { s with dists := s.dists.map (fun x =>
    if m.any (fun y => y.2.d.val == x.1) || s.recov.restoring.any (fun (r : Restore) => r.p.d.val == x.1) then x
    else (x.1, x.2.workLeft)) }

/-- The placement changed: what moves is taken over, flows whose endpoint moves are demoted, trees are due (R277, R287, R298). -/
def State.applyPlacement (s : State) (m : Sparse Pid) : State :=
  let moved := m.filterMap (fun x => match s.net.place.lookup x.1 with
    | some p => if p = x.2 then none else some (x.1, p, x.2)
    | none => none)
  let s1 := moved.foldl (fun (t : State) x => t.takeOver x.2.1 x.2.2) s
  let s2 := State.redueSummaries { s1 with net := { s1.net with
    place := m
    placeNext := none
    treesDue := true
    plan := s1.net.plan.map (fun (f : PlanFlow) =>
      if moved.any (fun x => x.1 == f.src || x.1 == f.dst) then f.demote else f) } }
  s2.giveBack m

/-- The time that a layer's records take under a share: ceil(9R / (20 s) × 160 / b) ns, b GB/s for a share (R251, R371); 0 under none. -/
def fetchNs (records share mode : Nat) : Nat :=
  let d := 20 * share * (if mode = 0 then 160 else if mode = 1 then 144 else 128)
  if d = 0 then 0 else (9 * records * 160 + d - 1) / d

/-- The slots of the layers that run streamed from this pass on: the declared one, stretched where the share in force needs more (R46,
R253, R371). A layer that runs resident again has no streamed slot in force. -/
def State.stretch (s : State) : State :=
  { s with model := { s.model with slots :=
    (s.model.layers.filter (fun (l : LayerEnt) => s.model.streamed.contains l.index)).foldl (fun (m : Sparse Nat) l =>
      Sparse.put m l.index (max l.streamNs (fetchNs l.records (s.model.shareNow l) s.stk.mode))) [] } }

/-- The modes of the layers from now on, with their slots. -/
def State.setModes (s : State) : State := { s with model := { s.model with streamed := s.streamedNow } }.stretch

/-- In LOADED, with no step open, a change of residency takes effect at once: armed maps are copied (R356). -/
def State.atOnce (s : State) : State :=
  if s.core.st ≠ .loaded || !s.serve.steps.isEmpty then s
  else { s.setModes with parcels := s.parcels.map (fun x => (x.1, x.2.copyMap.1)) }

/-- What takes effect for the engine at a pass boundary: placement, residency, trees, flows placed again. -/
def State.boundary (s : State) : State :=
  let moved := s.net.placeNext.isSome
  let s1 := match s.net.placeNext with
    | some m => s.applyPlacement m
    | none => s
  let s2 := s1.setModes
  let s3 := if s2.net.treesDue then
      let t := s2.buildTrees
      { t with net := { t.net with treesDue := false } }
    else s2
  if moved || s3.net.plan.any (fun (f : PlanFlow) => !f.placed) then s3.placePlan else s3

/-- The parcel reset for a repeated image fault (R200, R603): the sweeper's banks, events and exception are gone, the accumulators are zero
and of no kind (R115). -/
def ParcelState.resetForImage (ps : ParcelState) : ParcelState :=
  if ps.swp.lastImageFault.isNone then ps
  else { ps with
    swp := { inReset := false, param := ps.swp.param, cycle := ps.swp.cycle }
    dme := { ps.dme with acc := [] } }

/-- The pass of a step that is under way. -/
def Net.pass (n : Net) (num run : Nat) : Option PassRun := n.passes.find? (fun x => x.num == num && x.run == run)

/-- The engine at the PASS_START of a step: the first of a pass is its pass boundary; the others find it crossed. Of the passes
known only those of open steps stay. -/
def State.enterPass (s : State) (st : Step) : State :=
  if (s.net.pass st.num st.replays).isSome then s
  else
    let t := s.boundary
    let stay := t.net.passes.filter (fun x => x.num ≠ st.num && t.serve.steps.any (fun (y : Step) => y.num == x.num))
    { t with net := { t.net with passes := stay ++ [{ num := st.num, run := st.replays, streamed := t.model.streamed }] } }

/-- PASS_START: the pass boundary of a parcel, and the event posted to its image. -/
def State.passStart (s : State) (p : Pid) (payload : BitVec 56) : State :=
  let num := payload.toNat % 2 ^ 32
  if !s.running p || !((s.stepOf num).all (fun st => (s.parcel p).kv.planned st)) then s
  else
    let s0 := (s.stepOf num).elim s.boundary s.enterPass
    let s1 := s0.modStep num (fun x => { x with since := if x.since = 0 then s.time.ns else x.since })
    let on := ((s1.stepOf num).bind (fun x => s1.net.pass num x.replays)).elim s1.model.streamed PassRun.streamed
    let c := (s1.parcel p).copyMap
    let r := c.1.resetForImage
    let ps := { r with
      swp := { r.swp with step := BitVec.ofNat 64 num }
      lane := { r.lane with passSent := r.lane.sent, passReceived := r.lane.received } }
    let ps1 := (ps.write 0x566000 (s1.residencyBitmap on)).post (BitVec.ofNat 64 (2 ^ 56 + payload.toNat))
    let s2 := s1.setParcel p ps1
    if c.2 then s2.malformed p.d.val p.p.val else s2

/-- PASS_START. -/
def execPassStart (p : Pid) (payload : BitVec 56) (s : State) : Out := .next (s.passStart p payload)

end Sys2Proof.Machine
end

