-- ==== Sys2Proof/Machine/Sm2.lean ====
section
/-!
DEFINITION. The public-key algorithm SM2, which the manual names as a published standard: verification, signature, decryption (11
R334; 20 R570 to R580, R584 to R588). PRESUMED (log 20): curve, default signer ID and formulas are taken from the standard's text, not
from the manual.
-/
namespace Sys2Proof.Machine

/-- The prime of the curve. -/
def sm2P : Nat := 0xFFFFFFFEFFFFFFFFFFFFFFFFFFFFFFFFFFFFFFFF00000000FFFFFFFFFFFFFFFF

/-- The coefficient a of the curve. -/
def sm2A : Nat := sm2P - 3

/-- The coefficient b of the curve. -/
def sm2B : Nat := 0x28E9FA9E9D9F5E344D5A9E4BCF6509A7F39789F515AB8F92DDBCBD414D940E93

/-- The order of the base point. -/
def sm2N : Nat := 0xFFFFFFFEFFFFFFFFFFFFFFFFFFFFFFFF7203DF6B21C6052B53BBF40939D54123

/-- A point of the curve; none is the point at infinity. -/
abbrev Sm2Point := Option (Nat × Nat)

/-- The base point. -/
def sm2G : Sm2Point :=
  some (0x32C4AE2C1F1981195F9904466A39C9948FE30BBFF2660BE1715A4589334C74C7,
    0xBC3736A2F4F6779C59BDCEE36B692153D0A9877CC62A474002DF32E52139F0A0)

/-- The residue of a power, `n` bits of the exponent being left; `r` is the result so far. -/
def powMod (m : Nat) : Nat → Nat → Nat → Nat → Nat
  | 0, _, _, r => r
  | n + 1, b, e, r => powMod m n (b * b % m) (e / 2) (if e % 2 = 1 then r * b % m else r)

/-- The inverse of a residue of a prime. -/
def invMod (m x : Nat) : Nat := powMod m 256 (x % m) (m - 2) 1

/-- The difference of two residues. -/
def subMod (m x y : Nat) : Nat := (x + (m - y % m)) % m

/-- The third point of the line through two points with slope `l`, mirrored. -/
def sm2Third (l : Nat) (p q : Nat × Nat) : Nat × Nat :=
  let x := subMod sm2P (l * l) (p.1 + q.1)
  (x, subMod sm2P (l * subMod sm2P p.1 x) p.2)

/-- The sum of two points. -/
def sm2Add : Sm2Point → Sm2Point → Sm2Point
  | none, q => q
  | p, none => p
  | some p, some q =>
    if p.1 ≠ q.1 then some (sm2Third (subMod sm2P q.2 p.2 * invMod sm2P (subMod sm2P q.1 p.1) % sm2P) p q)
    else if (p.2 + q.2) % sm2P = 0 then none
    else some (sm2Third ((3 * p.1 * p.1 + sm2A) * invMod sm2P (2 * p.2) % sm2P) p p)

/-- A multiple of a point, `n` bits of the factor being left; `r` is the result so far. -/
def sm2MulFrom : Nat → Nat → Sm2Point → Sm2Point → Sm2Point
  | 0, _, _, r => r
  | n + 1, k, p, r => sm2MulFrom n (k / 2) (sm2Add p p) (if k % 2 = 1 then sm2Add r p else r)

/-- A multiple of a point. -/
def sm2Mul (k : Nat) (p : Sm2Point) : Sm2Point := sm2MulFrom 256 k p none

/-- Whether coordinates are those of a point of the curve. -/
def sm2On (x y : Nat) : Bool :=
  x < sm2P && y < sm2P && y * y % sm2P == (x * x * x + sm2A * x + sm2B) % sm2P

/-- The point that 64 bytes spell, x and then y, big-endian (R574). -/
def sm2Point (b : List Byte) : Nat × Nat := (beNat (b.take 32), beNat ((b.drop 32).take 32))

/-- The default signer ID: the ASCII digits 1 to 8, twice. -/
def sm2Id : List Byte := (List.range 16).map (fun i => BitVec.ofNat 8 (0x31 + i % 8))

/-- The number e that is signed for a message, under a public key. -/
def sm2Digest (q : Nat × Nat) (msg : List Byte) : Nat :=
  let z := sm3 ([0x00, 0x80] ++ sm2Id ++ [sm2A, sm2B, (sm2G.getD (0, 0)).1, (sm2G.getD (0, 0)).2, q.1, q.2].flatMap (fun v => beBytes v 32))
  beNat (sm3 (z ++ msg))

/-- Whether a signature, r and then s, verifies: public key, message, signature. -/
def sm2Verify (key msg sig : List Byte) : Bool :=
  let q := sm2Point key
  let r := (sm2Point sig).1
  let s := (sm2Point sig).2
  let t := (r + s) % sm2N
  sig.length == 64 && sm2On q.1 q.2 && 1 ≤ r && r < sm2N && 1 ≤ s && s < sm2N && t ≠ 0 &&
  (match sm2Add (sm2Mul s sm2G) (sm2Mul t (some q)) with
   | none => false
   | some x => (sm2Digest q msg + x.1) % sm2N == r)

/-- The signature of a message with private key `d` and random number `k`. -/
def sm2Sign (d k : Nat) (msg : List Byte) : List Byte :=
  let q := (sm2Mul d sm2G).getD (0, 0)
  let r := (sm2Digest q msg + ((sm2Mul k sm2G).getD (0, 0)).1) % sm2N
  let s := invMod sm2N (1 + d) * subMod sm2N k (r * d) % sm2N
  beBytes r 32 ++ beBytes s 32

/-- `n` bytes that the standard's key derivation makes of some bytes. -/
def sm2Kdf (z : List Byte) (n : Nat) : List Byte :=
  ((List.range ((n + 31) / 32)).flatMap (fun i => sm3 (z ++ beBytes (i + 1) 4))).take n

/-- The plaintext of a ciphertext C1, C3, C2 under a private key, where it decrypts (R575). -/
def sm2Decrypt (d : Nat) (c : List Byte) : Option (List Byte) :=
  let p := sm2Point (c.drop 1)
  let c3 := (c.drop 65).take 32
  let c2 := c.drop 97
  if c.length < 97 || c.head? ≠ some 0x04 || !sm2On p.1 p.2 then none
  else match sm2Mul d (some p) with
    | none => none
    | some q =>
      let t := sm2Kdf (beBytes q.1 32 ++ beBytes q.2 32) c2.length
      let m := List.zipWith (fun (x y : Byte) => x ^^^ y) c2 t
      if t.all (fun b => b == 0) || sm3 (beBytes q.1 32 ++ m ++ beBytes q.2 32) != c3 then none else some m

end Sys2Proof.Machine
end

