-- ==== Sys2Proof/Machine/Image.lean ====
section
/-!
DEFINITION. Deeds, images and their checks (08 R242 to R257; 10 R319; 11 R331 to R336; 13 R391, R400, R415; 20 R578 to R580).
-/
namespace Sys2Proof.Machine

/-! ### Fields and texts -/

/-- The ASCII bytes of eight character codes. -/
def ascii (cs : List Nat) : List Byte := cs.map (BitVec.ofNat 8)

/-- "LW3DEED1". -/
def deedMagic : List Byte := ascii [0x4C, 0x57, 0x33, 0x44, 0x45, 0x45, 0x44, 0x31]
/-- "LW3IMAGE". -/
def imageMagic : List Byte := ascii [0x4C, 0x57, 0x33, 0x49, 0x4D, 0x41, 0x47, 0x45]
/-- "LW3VOCAB". -/
def vocabMagic : List Byte := ascii [0x4C, 0x57, 0x33, 0x56, 0x4F, 0x43, 0x41, 0x42]

/-- PUBKEY_ID of a public key (R578). -/
def pubId (k : BitVec 512) : List Byte := sm3 (keyBytes k)

/-! ### Deeds (R331 to R334) -/

/-- Bytes of a deed with `n` segments (R331). -/
def deedSize (n : Nat) : Nat := 96 + 64 * n + 64

/-- Segment entry `i` of a deed (R332). -/
def segEntryOf (b : List Byte) (i : Nat) : SegEntry :=
  let e := (b.drop (96 + 64 * i)).take 64
  { kind := entField e 0 1
    flags := entField e 1 1
    target := entField e 2 2
    parcel := entField e 4 4
    offset := entField e 8 4
    records := entField e 12 4
    tag := BitVec.ofNat 128 (entField e 16 16)
    digest := e.drop 32
    head := e.take 16 }

/-- A deed read from its bytes (R331). -/
def deedOf (b : List Byte) : Deed :=
  let n := entField b 12 4
  { nengine := entField b 10 2
    nseg := n
    modelId := entField b 16 8
    generation := entField b 24 8
    nonce := entField b 32 8
    pubId := (b.drop 40).take 32
    baseId := entField b 72 8
    baseGen := entField b 80 8
    segs := (List.range n).map (segEntryOf b) }

/-- Whether a segment is enciphered (R332). -/
def SegEntry.enc (e : SegEntry) : Bool := e.flags % 2 = 1

/-- Whether an ordinal keeps a segment (R341). -/
def SegEntry.keptBy (e : SegEntry) (ordinal : Nat) : Bool := e.target = ordinal || e.target = 0xFFFF

/-- KIND and ENC of R333, reserved bits, the fields of KIND 5 and RECORDS (R332, R345). -/
def SegEntry.formOk (e : SegEntry) (adapter : Bool) : Bool :=
  e.flags < 2 && 1 ≤ e.records && e.records ≤ 2 ^ 28 &&
  (match e.kind with
   | 1 => !adapter && !e.enc
   | 2 => !adapter && e.enc && e.records == 8464
   | 3 => !adapter && e.enc
   | 4 => !adapter
   | 5 => adapter && e.enc && e.offset % 4 == 0
   | 6 => !adapter && !e.enc
   | _ => false) &&
  (e.kind == 5 || (e.parcel == 0 && e.offset == 0))

/-- The deed's own form: step 5 of R334, with the counts of R333 and R400. -/
def deedFormOk (b : List Byte) (d : Deed) (kind ordinal : Nat) : Bool :=
  b.take 8 == deedMagic && entField b 8 2 == 1 && 1 ≤ d.nengine && d.nengine ≤ 10240 && 1 ≤ d.nseg &&
  d.nseg ≤ 1048576 && entZero b 88 8 && ordinal < d.nengine && d.segs.all (fun e => e.formOk (kind == 1)) &&
  (if kind = 1 then true
   else d.baseId == 0 && d.baseGen == 0 &&
     (d.segs.filter (fun e => e.kind == 6)).length == 1 &&
     (List.range d.nengine).all (fun o => (d.segs.filter (fun e => e.kind == 1 && e.target == o)).length == 1) &&
     (d.segs.filter (fun e => e.kind == 1)).length == d.nengine)

/-- Areas of parcel `lp` that an adapter's segments take: SRAM offset and length of each. -/
def adapterAreas (ordinal : Nat) (segs : List SegEntry) (lp : Nat) : List (Nat × Nat) :=
  (segs.filter (fun e => e.keptBy ordinal && e.parcel == lp)).map (fun e => (e.offset, 68 * e.records))

/-- Whether ranges of a list do not overlap each other. -/
def disjoint : List (Nat × Nat) → Bool
  | [] => true
  | a :: as => as.all (fun b => !overlap a.1 a.2 b.1 b.2) && disjoint as

/-- The KV areas of a parcel (R319): frames, and step page list. -/
def kvAreas (k : KvState) : List (Nat × Nat) :=
  if k.nframe = 0 then [] else [(k.frameBase, pageBytes * k.nframe), (k.splBase, 8192 * k.nkvh)]

/-- What R361 asks of an adapter deed: it names the loaded model, its segments lie in image data outside the KV areas and the
areas of other loaded adapters. DESIGN CHOICE (log 37): they must fit the slot's stack region. -/
def State.adapterDeedOk (s : State) (d : Deed) : Bool :=
  d.baseId == s.model.modelId && d.baseGen == s.model.generation &&
  ((d.segs.filter (fun e => e.keptBy s.model.ordinal)).map (fun e => (72 * e.records + 1151) / 1152 * 1152)).sum ≤ 0x12000000 &&
  (d.segs.filter (fun e => e.keptBy s.model.ordinal)).all (fun e =>
    e.parcel < s.model.nparcel && within e.offset (68 * e.records) 0 0x530000 &&
    (s.net.place.lookup e.parcel).any (fun p =>
      (kvAreas (s.parcel p).kv ++ s.model.adapters.flatMap (fun x => adapterAreas s.model.ordinal x.2.segs e.parcel)).all (fun a =>
        !overlap e.offset (68 * e.records) a.1 a.2)))

/-- The trust list in force: none where both copies are invalid (R537, R579). -/
def Copies.current {α : Type} (c : Copies α) : Option α :=
  if c.aOk && (!c.bOk || c.bSeq ≤ c.aSeq) then some c.a else if c.bOk then some c.b else none

/-- A write of a structure kept in two copies: into the copy with the lower SEQ, or the invalid one (R539, R540). -/
def Copies.write {α : Type} (c : Copies α) (x : α) : Copies α :=
  if !c.aOk || (c.bOk && c.aSeq < c.bSeq) then { c with a := x, aOk := true, aSeq := c.bSeq + 1 }
  else { c with b := x, bOk := true, bSeq := c.aSeq + 1 }

/-- The generation entry of a publisher and model. -/
def genOf (l : List GenEntry) (pub : List Byte) (m : Nat) : Option GenEntry :=
  l.find? (fun (g : GenEntry) => leBytes g.pub.toNat 32 == pub && g.model.toNat == m)

/-- The record with a generation accepted. -/
def genPut (l : List GenEntry) (pub : List Byte) (m g : Nat) : List GenEntry :=
  let e : GenEntry := { pub := BitVec.ofNat 256 (leNat pub), model := BitVec.ofNat 64 m, gen := BitVec.ofNat 64 g }
  if (genOf l pub m).isSome then
    l.map (fun (x : GenEntry) => if leBytes x.pub.toNat 32 == pub && x.model.toNat == m then e else x)
  else l ++ [e]

/-- The plaintext of an envelope where it opens and names this load (R580): the key. -/
def State.envelopeKey (s : State) (l : Load) (d : Deed) : Option (BitVec 128) :=
  match sm2Decrypt (Config.identityKey s.nv.serial).toNat l.envelope with
  | none => none
  | some b =>
    if b.length = 64 && entField b 16 8 = d.modelId && entField b 24 8 = d.nonce &&
        entField b 32 8 = s.nv.serial.toNat && entField b 40 1 = l.kind &&
        entField b 41 1 = (if l.kind = 1 then l.slot else 0) && entField b 42 1 = (if l.kind = 1 then l.tenant else 0) &&
        entZero b 43 5 && entZero b 56 8 && (entField b 48 8 = 0 || s.time.ns ≤ entField b 48 8)
    then some (BitVec.ofNat 128 (entField b 0 16)) else none

/-- The checks of a deed in the order of R334: the key, or the status of the first failure. A full generation record fails
with QUOTA_EXCEEDED (R579). -/
def State.verifyDeed (s : State) (l : Load) (b : List Byte) : Except Nat (Deed × BitVec 128) :=
  let d := deedOf b
  let keys := (s.nv.trust.current).getD []
  match s.nv.gens.current with
  | none => .error stSignature
  | some gens =>
    if sm3 b != leBytes l.deedDigest.toNat 32 then .error stSignature
    else match keys.find? (fun k => pubId k == d.pubId) with
    | none => .error stSignature
    | some k =>
      let signed := b.take (96 + 64 * d.nseg)
      if !sm2Verify (keyBytes k) signed ((b.drop (96 + 64 * d.nseg)).take 64) then
        .error stSignature
      else
        let g := genOf gens d.pubId d.modelId
        if g.any (fun e => decide (d.generation < e.gen.toNat)) then .error stSignature
        else if g.isNone && gens.length ≥ 1024 then .error stQuota
        else if !(deedFormOk b d l.kind l.ordinal && (l.kind = 0 || s.adapterDeedOk d)) then .error stMalformed
        else match s.envelopeKey l d with
          | none => .error stKey
          | some key => .ok (d, key)

/-- Address of each segment: kept ones follow each other at multiples of 1,152 from `a` on (R343). -/
def layOut (ordinal : Nat) : Nat → List SegEntry → List SegEntry
  | _, [] => []
  | a, e :: es =>
    if e.keptBy ordinal then
      { e with addr := a } :: layOut ordinal ((a + 72 * e.records + 1151) / 1152 * 1152) es
    else e :: layOut ordinal a es

/-- The first address above the kept segments. -/
def layEnd (ordinal : Nat) : Nat → List SegEntry → Nat
  | a, [] => a
  | a, e :: es =>
    if e.keptBy ordinal then layEnd ordinal ((a + 72 * e.records + 1151) / 1152 * 1152) es else layEnd ordinal a es

/-- Where the kept segments of a base deed start: behind the deed itself (R344). -/
def segBase (nseg : Nat) : Nat := 0x5A0000000 + (72 * ((deedSize nseg + 63) / 64) + 1151) / 1152 * 1152

/-! ### The vocabulary (R400, R415) -/

/-- Whether a tree of speculative nodes is formed as R415 asks: used nodes come first, each names the root or an earlier node,
ranks are 0 to 15, depths at most `nspec`, no two share parent and rank. -/
def treeOk (nspec : Nat) (tree : List (Nat × Nat)) : Bool :=
  let used := tree.takeWhile (fun x => x.1 ≠ 0xFF)
  (tree.drop used.length).all (fun x => x.1 == 0xFF) &&
  used.zipIdx.all (fun x => x.1.1 ≤ x.2 && x.1.2 < 16 && nodeDepth tree 17 (x.2 + 1) ≤ nspec) &&
  used.eraseDups.length == used.length

/-- The VOCAB segment at a stack address, read. -/
def State.vocabAt (s : State) (a : Nat) : Vocab :=
  let b := s.rawRead a 0 96
  { addr := a
    nvocab := entField b 8 4
    nspec := entField b 12 1
    ends := ((List.range (entField b 13 1)).map (fun i => entField b (16 + 4 * i) 4))
    maxContext := entField b 48 4
    stepRows := entField b 52 4
    pool := entField b 56 4
    tree := (List.range 16).map (fun i => (entField b (64 + 2 * i) 1, entField b (65 + 2 * i) 1)) }

/-- Whether token entry `i` lies within the pool. -/
def State.vocabTokenOk (s : State) (v : Vocab) (i : Nat) : Bool :=
  let e := s.rawRead v.addr (96 + 8 * i) 8
  entField e 4 2 ≤ 64 && entField e 6 1 ≤ 2 && entField e 7 1 == 0 && entField e 0 4 + entField e 4 2 ≤ v.pool

/-- Whether a VOCAB segment of `records` records is formed as R400 asks. -/
def State.vocabOk (s : State) (a records : Nat) : Bool :=
  let b := s.rawRead a 0 96
  let v := s.vocabAt a
  b.take 8 == vocabMagic && 1 ≤ v.nvocab && v.nvocab ≤ 1048576 && v.nspec ≤ 4 && entField b 13 1 ≤ 8 &&
  entZero b 14 2 && 1 ≤ v.maxContext && v.maxContext ≤ 1048576 && 256 ≤ v.stepRows && v.stepRows ≤ 4096 &&
  entZero b 60 4 && 96 + 8 * v.nvocab + v.pool ≤ 64 * records && treeOk v.nspec v.tree &&
  (List.range v.nvocab).all (s.vocabTokenOk v)

/-! ### Images (R254 to R257) -/

/-- An entry of the section directory (R255). -/
structure Sect where
  kind : Nat
  count : Nat
  off : Nat
  len : Nat
  digest : List Byte
deriving DecidableEq, Repr, Inhabited

/-- The header of an image (R254). -/
structure ImgHead where
  ndist : Nat
  nengine : Nat
  nparcel : Nat
  nlayer : Nat
  ntree : Nat
  nflow : Nat
  nsect : Nat
  ordinal : Nat
  draws : List Nat
  kvShare : Nat
  fallback : Nat
deriving DecidableEq, Repr, Inhabited

/-- The header read. -/
def imgHead (b : List Byte) : ImgHead :=
  { ndist := entField b 12 2
    nengine := entField b 14 2
    nparcel := entField b 16 4
    nlayer := entField b 20 2
    ntree := entField b 22 2
    nflow := entField b 24 4
    nsect := entField b 28 2
    ordinal := entField b 30 2
    draws := (List.range 16).map (fun i => entField b (32 + 2 * i) 2)
    kvShare := entField b 64 2
    fallback := entField b 66 2 }

/-- A directory entry read. -/
def sectOf (b : List Byte) : Sect :=
  { kind := entField b 0 4
    count := entField b 4 4
    off := entField b 8 8
    len := entField b 16 8
    digest := (b.drop 24).take 32 }

/-- The image at a stack address: header and directory. -/
def State.imgHeadAt (s : State) (a : Nat) : ImgHead := imgHead (s.rawRead a 0 256)

/-- Its directory. -/
def State.imgDir (s : State) (a : Nat) : List Sect :=
  (List.range (s.imgHeadAt a).nsect).map (fun i => sectOf (s.rawRead a (256 + 56 * i) 56))

/-- The bytes of a section. -/
def State.sectBytes (s : State) (a : Nat) (x : Sect) : List Byte := s.rawRead a x.off x.len

/-- The bytes of the one section of a kind. -/
def State.kindBytes (s : State) (a k : Nat) : List Byte :=
  match (s.imgDir a).find? (fun x => x.kind == k) with
  | some x => s.sectBytes a x
  | none => []

/-- Parcel entries (R255 kind 3). -/
def parcelEnts (b : List Byte) : List ParcelEnt :=
  (chunks 136 (b.length / 136) b).map (fun e => {
    role := entField e 0 2
    hgFirst := entField e 2 2
    hgSize := entField e 4 2
    hgPos := entField e 6 2
    offset := entField e 8 2
    descs := (List.range 10).map (fun i => (entField e (16 + 12 * i) 4, entField e (20 + 12 * i) 8)) })

/-- Layer entries (R255 kind 4). -/
def layerEnts (b : List Byte) : List LayerEnt :=
  (chunks 32 (b.length / 32) b).map (fun e => {
    index := entField e 0 2
    streamed := entField e 2 1 = 1
    slotNs := entField e 4 4
    streamNs := entField e 8 4
    records := entField e 12 4
    share := entField e 16 2 })

/-- Valid lot map entries (R256); a THRESH of 0 stands for 12. -/
def lotEnts (b : List Byte) : List LotEnt :=
  ((chunks 8 (b.length / 8) b).zipIdx.filter (fun x => leNat x.1 / 128 % 2 = 1)).map (fun x =>
    let w := leNat x.1
    { lp := x.2 / 16
      lot := x.2 % 16
      layer := w / 2 ^ 48
      seg := w / 2 ^ 16 % 2 ^ 32
      thresh := if w / 2 ^ 10 % 64 = 0 then 12 else w / 2 ^ 10 % 64
      driftMode := w / 2 ^ 8 % 4 })

/-- Plan entries, at most `n` (R255 kind 6); none where the bytes do not make up whole entries. -/
def planEnts : Nat → List Byte → Option (List PlanFlow)
  | 0, b => if b.isEmpty then some [] else none
  | n + 1, b =>
    let k := entField b 5 1
    if b.length < 8 + 4 * k || !entZero b 6 2 then none
    else
      let f : PlanFlow := {
        src := entField b 0 2
        dst := entField b 2 2
        ch := entField b 4 1
        runs := (List.range k).map (fun i => (entField b (8 + 4 * i) 2, entField b (10 + 4 * i) 2)) }
      (planEnts n (b.drop (8 + 4 * k))).map (fun r => f :: r)

/-- Tree entries, at most `n` (R255 kind 7). -/
def treeEnts : Nat → List Byte → Option (List (Nat × Tree))
  | 0, b => if b.isEmpty then some [] else none
  | n + 1, b =>
    let k := entField b 4 2
    if b.length < 8 + 2 * k || !entZero b 6 2 then none
    else
      let t : Tree := { root := entField b 2 2, members := (List.range k).map (fun i => entField b (8 + 2 * i) 2) }
      (treeEnts n (b.drop (8 + 2 * k))).map (fun r => (entField b 0 2, t) :: r)

/-- Step 1: each section's digest. -/
def State.imgDigests (s : State) (a : Nat) : Bool :=
  (s.imgDir a).all (fun x => sm3 (s.sectBytes a x) == x.digest)

/-- Whether a section's size and count are right (R255). -/
def Sect.sizeOk (x : Sect) (h : ImgHead) : Bool :=
  match x.kind with
  | 1 => x.len ≤ 131072 && x.len % 8 == 0
  | 2 => x.len ≤ 98304
  | 3 => x.count == h.nparcel && x.len == 136 * h.nparcel
  | 4 => x.count == h.nlayer && x.len == 32 * h.nlayer
  | 5 => x.len == 128 * h.nparcel
  | 6 => x.count == h.nflow
  | 7 => x.count == h.ntree
  | _ => false

/-- Step 2: magic, version, reserved fields, counts, sizes, kinds and overlaps in an image of `records` records. -/
def State.imgFormOk (s : State) (a records : Nat) : Bool :=
  let b := s.rawRead a 0 256
  let h := imgHead b
  let ds := s.imgDir a
  b.take 8 == imageMagic && entField b 8 2 == 2 && entZero b 68 188 &&
  1 ≤ h.ndist && h.ndist ≤ 56 && 1 ≤ h.nengine && h.nengine ≤ 10240 &&
  128 * (h.ndist - 1) < h.nparcel && h.nparcel ≤ 128 * h.ndist && 1 ≤ h.nlayer && h.ntree ≤ 256 &&
  1 ≤ h.nsect && h.nsect ≤ 64 && h.ordinal < h.nengine &&
  ds.all (fun x => x.off % 8 == 0 && 256 + 56 * h.nsect ≤ x.off && x.off + x.len ≤ 64 * records && x.sizeOk h) &&
  disjoint (ds.map (fun x => (x.off, x.len))) &&
  [3, 4, 5, 6, 7].all (fun k => (ds.filter (fun x => x.kind == k)).length == 1) &&
  (chunks 136 h.nparcel (s.kindBytes a 3)).all (fun e => entZero e 10 6) &&
  (chunks 32 h.nlayer (s.kindBytes a 4)).all (fun e => entField e 2 1 ≤ 1 && entZero e 3 1 && entZero e 18 14) &&
  (planEnts h.nflow (s.kindBytes a 6)).isSome && (treeEnts h.ntree (s.kindBytes a 7)).isSome

/-- DIST_ADDR of a grade (R5). -/
def Grade.distAddr : Grade → Nat
  | .a56 => 56
  | .b48 => 48

/-- Step 4: the current-class table (R239). -/
def drawsOk (ds : List Nat) : Bool :=
  ds.zipIdx.all (fun x => x.1 == 0 || (defaultDraw x.2 ≠ 0 && defaultDraw x.2 ≤ x.1 && x.1 ≤ 3200))

/-- What a parameter descriptor puts into its register (R245). -/
def descValue (segs : List SegEntry) (engine : Nat → Nat) (d : Nat × Nat) : Word :=
  match d.1 with
  | 1 => BitVec.ofNat 64 (engine d.2 % 2 ^ 14 * 2 ^ 48)
  | 2 => BitVec.ofNat 64 ((segs[d.2]?).map SegEntry.addr |>.getD 0)
  | _ => BitVec.ofNat 64 d.2

/-- The KV layout of R319. -/
def kvCfgOk (v : Word) : Bool :=
  let k : KvState := { cfg := v }
  1 ≤ k.nframe && k.nframe ≤ 96 && 1 ≤ k.nkvh && k.nkvh ≤ 16 && k.frameBase % 4 == 0 && k.splBase % 8 == 0 &&
  within k.frameBase (pageBytes * k.nframe) 0 0x530000 && within k.splBase (8192 * k.nkvh) 0 0x530000 &&
  !overlap k.frameBase (pageBytes * k.nframe) k.splBase (8192 * k.nkvh)

/-- Step 5 for a parcel entry. DEDUCED (log 36): HG_SIZE 0 is a parcel in no head group, as R319 has it. -/
def ParcelEnt.ok (e : ParcelEnt) (roles : List Nat) (nparcel : Nat) (segs : List SegEntry) (engine : Nat → Nat) : Bool :=
  roles.contains e.role && e.hgFirst + e.hgSize ≤ nparcel && (e.hgSize == 0 || e.hgPos < e.hgSize) && e.offset ≤ 4095 &&
  e.descs.all (fun d => d.1 ≤ 2 && (d.1 ≠ 2 || d.2 < segs.length)) &&
  (e.hgSize == 0 || kvCfgOk (descValue segs engine (e.descs.headD (0, 0))))

/-- Step 6 for the lot map section. -/
def lotMapOk (b : List Byte) (layers : List LayerEnt) (segs : List SegEntry) (ordinal : Nat) : Bool :=
  (chunks 8 (b.length / 8) b).all (fun e => leNat e % 128 == 0 && leNat e / 256 % 4 ≠ 3) &&
  (lotEnts b).all (fun e =>
    layers.any (fun l => l.index == e.layer) &&
    (segs[e.seg]?).any (fun x => x.kind == 2 && x.keptBy ordinal))

/-- Whether a flow's runs are legal (R248). -/
def PlanFlow.runsOk (f : PlanFlow) : Bool :=
  1 ≤ f.runs.length && f.runs.length ≤ 64 && f.runs.all (fun r => 1 ≤ r.2 && r.1 + r.2 ≤ 4096) &&
  (f.runs.zip (f.runs.drop 1)).all (fun x => x.1.1 + x.1.2 ≤ x.2.1)

/-- Logical parcel `k` in the nominal placement (R248). -/
def nominalPid (k : Nat) : Pid := pidOf (144 * (k / 128) + k % 128)

/-- The machine in the nominal placement: of all places only the corners are holes (R248, R273, R300). -/
def nominal (parcels : List ParcelEnt) : State :=
  { net := { place := (List.range parcels.length).map (fun k => (k, nominalPid k)) }
    dists := (List.range 60).map (fun d => (d, { detour := detourTable [] d }))
    model := { parcels := parcels } }

/-- The links of flows reserved under the nominal placement; none where two meet (R248). -/
def nominalMap (s : State) : LinkMap → List PlanFlow → Option LinkMap
  | m, [] => some m
  | m, f :: fs =>
    let links := (s.flowLinks f).getD []
    let free := f.runs.all (fun r => runFree m links (s.offsetOf f.src + r.1) r.2 0)
    if !free then none
    else nominalMap s (f.runs.foldl (fun (a : LinkMap) r => reserveRun a links (s.offsetOf f.src + r.1) r.2 0) m) fs

/-- Bits set in a frame map. -/
def slotsOf (m : BitVec 4096) : Nat := ((List.range 4096).filter (fun i => m.getLsbD i)).length

/-- Whether a plan is valid (R248). -/
def planOk (plan : List PlanFlow) (parcels : List ParcelEnt) : Bool :=
  let n := parcels.length
  plan.all (fun f => f.runsOk && f.src < n && f.dst < n && f.ch < 64) &&
  (plan.map (fun f => (f.src, f.dst, f.ch))).eraseDups.length == plan.length &&
  (nominalMap (nominal parcels) [] plan).any (fun m => m.all (fun l => slotsOf l.2 ≤ 3584))

/-- Whether the trees are legal (step 7). -/
def treesOk (ts : List (Nat × Tree)) (n : Nat) : Bool :=
  ts.all (fun t => t.1 < 256 && t.2.root < n && t.2.members.all (fun m => m < n) &&
    t.2.members.eraseDups.length == t.2.members.length) &&
  (ts.map Prod.fst).eraseDups.length == ts.length

/-- Step 8: R251 for every layer, R252 for the shares. -/
def sharesOk (h : ImgHead) (ls : List LayerEnt) : Bool :=
  ls.all (fun l => 9 * l.records ≤ 20 * l.share * l.streamNs) && 8 ≤ h.fallback && h.fallback ≤ 255 &&
  h.kvShare + h.fallback + ((ls.filter LayerEnt.streamed).map LayerEnt.share).sum ≤ 256

/-! ### Placement (R20, R248) -/

/-- Whether a traverse in progress covers a unit: a district, a parcel in it, a lot in that (R525). -/
def Trav.covers (t : Trav) (d : Nat) (p l : Option Nat) : Bool :=
  t.d == d && (match t.scope with
    | 0 => p == some t.parcel && l == some t.lot
    | 1 => p == some t.parcel || p.isNone
    | 2 => true
    | _ => false)

/-- Whether a traverse in progress has a parcel or its whole district. -/
def State.parcelInTraverse (s : State) (p : Pid) : Bool :=
  s.cal.active.any (fun t => t.d == p.d.val && (t.scope == 2 || (t.scope == 1 && t.parcel == p.p.val)))

/-- The physical lots of a parcel that can serve: not retired, not under traverse, ascending. -/
def State.goodLots (s : State) (p : Pid) : List Nat :=
  (List.range 18).filter (fun l => !(s.parcel p).health.lotsRetired.getLsbD l &&
    !s.cal.active.any (fun t => t.scope == 0 && t.d == p.d.val && t.parcel == p.p.val && t.lot == l))

/-- Whether a parcel can take work: healthy and under no traverse. -/
def State.parcelOk (s : State) (p : Pid) : Bool :=
  let h := (s.parcel p).health
  !h.bollard && !h.retired && !s.parcelInTraverse p

/-- Whether a district can take work: unfused, not retired, ACTIVE or SPARE. -/
def State.districtOk (s : State) (d : Nat) : Bool :=
  let x := s.dist d
  !s.nv.fused.getLsbD d && !x.retired && (x.st == .active || x.st == .spare) && !x.busy

/-- Parcels for logical parcels `k` on, in ascending order: each takes the next physical parcel with enough lots. -/
def State.takeParcels (s : State) (need : Nat → Nat) : Nat → Nat → List Pid → Option (List (Nat × Pid))
  | 0, _, _ => some []
  | _ + 1, _, [] => none
  | n + 1, k, p :: ps =>
    if s.parcelOk p && need k ≤ (s.goodLots p).length then
      (s.takeParcels need n (k + 1) ps).map (fun r => (k, p) :: r)
    else s.takeParcels need (n + 1) k ps

/-- The parcels of a district. -/
def districtPids (d : Nat) : List Pid := (List.range 144).map (fun p => pidOf (144 * d + p))

/-- Districts for logical districts `k` on (R20): each takes the next physical district that holds its parcels. -/
def State.takeDistricts (s : State) (need : Nat → Nat) (nparcel : Nat) : Nat → Nat → List Nat → Option (List (Nat × Pid))
  | 0, _, _ => some []
  | _ + 1, _, [] => none
  | n + 1, k, d :: ds =>
    let m := min 128 (nparcel - 128 * k)
    match (if s.districtOk d then s.takeParcels need m (128 * k) (districtPids d) else none) with
    | some ps => (s.takeDistricts need nparcel n (k + 1) ds).map (fun r => ps ++ r)
    | none => s.takeDistricts need nparcel (n + 1) k ds

/-- The placement of an image (R20): DESIGN CHOICE (log 38), the lowest districts and parcels that can take the work. -/
def State.placement (s : State) (h : ImgHead) (lots : List LotEnt) : Option (List (Nat × Pid)) :=
  s.takeDistricts (fun k => (lots.filter (fun e => e.lp == k)).length) h.nparcel h.ndist 0 (List.range 60)

/-- The checks of R257 in their order on the image at `a`: the placement, or the status of the first failure. -/
def State.checkImage (s : State) (a records : Nat) (segs : List SegEntry) (nengine : Nat) : Except Nat (List (Nat × Pid)) :=
  let h := s.imgHeadAt a
  let ps := parcelEnts (s.kindBytes a 3)
  let ls := layerEnts (s.kindBytes a 4)
  let plan := (planEnts h.nflow (s.kindBytes a 6)).getD []
  let trees := (treeEnts h.ntree (s.kindBytes a 7)).getD []
  let eng := ({ s with model := { s.model with ordinal := s.load.ordinal, next := s.load.next } }).engineOf
  let roles := ((s.imgDir a).filter (fun x => x.kind == 1)).map Sect.count
  if !s.imgDigests a then .error stSignature
  else if !s.imgFormOk a records then .error stMalformed
  else if !(h.ndist ≤ s.nv.grade.distAddr && h.ordinal == s.load.ordinal && h.nengine == nengine) then .error stMalformed
  else if !drawsOk h.draws then .error stMalformed
  else if !ps.all (fun e => e.ok roles h.nparcel segs eng) then .error stMalformed
  else if !lotMapOk (s.kindBytes a 5) ls segs s.load.ordinal then .error stMalformed
  else if !(planOk plan ps && treesOk trees h.nparcel) then .error stMalformed
  else if !sharesOk h ls then .error stMalformed
  else match s.placement h (lotEnts (s.kindBytes a 5)) with
    | none => .error stNoSpare
    | some pl => .ok pl

end Sys2Proof.Machine
end

