-- ==== Sys2Proof/Machine/LotRun.lean ====
section
/-!
DEFINITION. The start of an LMV and the recompute routine, with the image weights they compute with (02 R68; 03 R101,
R104; 11 R345).
-/
namespace Sys2Proof.Machine

/-- Record `k` of the LOT segment `seg` at stack address `a`, deciphered with the model key (R335, R345). -/
def State.lotRecord (s : State) (a seg k : Nat) : List Byte :=
  cipherBytes (Sparse.get {} s.stk.keys 1) seg (68 * k) (s.stackRead (a + 72 * k) 68)

/-- The record of a LOT segment that holds weight (r, c), and the weight's place in it (R213, R345). -/
def weightPlace (r c : Nat) : Nat × Nat :=
  let n := 64 * (c % 64) + r % 64
  (1024 * (c / 64 / 2) + 64 * (r / 64) + 32 * (c / 64 % 2) + n / 128, n % 128)

/-- The image weight w_img[r][c] of the segment (R101, R345); the N4 code 0x8 reads 0. -/
def State.segWeight (s : State) (a seg r c : Nat) : Int :=
  let w := weightPlace r c
  (elemValue 5 (burstCode 5 (leNat ((s.lotRecord a seg w.1).drop 4)) 0 w.2)).1

/-- The image weights of physical lot `l` of parcel `p`: 0 where no segment was programmed. -/
def State.imageWeight (s : State) (p : Pid) (l r c : Nat) : Int :=
  match ((s.parcel p).lot l).segment with
  | some (a, seg) => s.segWeight a seg r c
  | none => 0

/-- LMV_START: `disturb` is the analogue disturbance of each conversion (R57). -/
def execLmvStart (p : Pid) (l : LotId) (disturb : List (Nat × Nat × Int)) (s : State) : Out :=
  .next (s.modParcel p (fun ps => ps.lmvStart l.val disturb (s.imageWeight p l.val)))

/-! ### The recompute routine (R100 to R102) -/

/-- The lot and the LMV number that a recompute event names (log 10). -/
def recomputeOf (e : Word) : Nat × Nat := (e.toNat / 2 ^ 40 % 256, e.toNat % 2 ^ 40)

/-- Whether an event is a recompute event. -/
def isRecompute (e : Word) : Bool := e.toNat / 2 ^ 56 == 0x80

/-- The start of the routine of recompute event `e`: it reads the codes of INPUT_SAVE, which is free again, and an LMV that waited for it
goes on (R101, R102). -/
def State.startRoutine (s : State) (p : Pid) (e : Word) : State :=
  let x := recomputeOf e
  if !isRecompute e || ((s.parcel p).lot x.1).saveHeld ≠ some x.2 then s
  else s.modParcel p (fun ps =>
    let ps1 := { ps with swp := { ps.swp with recodes := ps.read (cbBase x.1 + 0x3400) 1024 } }
    (ps1.modLot x.1 (fun l => { l with saveHeld := none })).lmvResume x.1 (s.imageWeight p x.1))

/-- Whether the record at a stack address arrives whole (R151, R370). -/
def State.recordGood (s : State) (a : Nat) : Bool :=
  !s.stk.lostRecs.contains a && decide (s.stk.lost.length ≤ 2) && recordOk (s.stackRead a 72)

/-- The weight that the routine computes with: the image weight, and a free value where the weight's record does not arrive (log 126). -/
def State.loadedWeight (s : State) (a seg r c : Nat) : Int :=
  let w := weightPlace r c
  if s.recordGood (a + 72 * w.1) then s.segWeight a seg r c else ((Config.staleWeight (a + 72 * w.1) w.2).val : Int) - 7

/-- One record of the routine's LDQ: rebuilt where a stack is lost; a record that is lost or fails its CRC is a data fault (R101, R151). -/
def State.routineRecord (p : Pid) (tag : Nat) (s : State) (a : Nat) : State :=
  let r := s.readRecord [] a
  if r.2 then r.1.fault p .lost
  else if recordOk (s.stackRead a 72) then r.1
  else (r.1.modParcel p (fun ps => ps.countCrc tag)).fault p .crc

/-- The 1,024 records of column group `j` of the segment at `a` (R101, R345). -/
def groupRecords (a j : Nat) : List Nat := (List.range 1024).map (fun k => a + 72 * (1024 * j + k))

/-- The routine's products for one group: 32 DMMs of one INT8 vector and one N4 tile (R101, R112, R135). -/
def DmeState.routineDmms (d : DmeState) : DmeState :=
  { d.addActive (32 * 4) with dmmDone := satAdd 32 d.dmmDone 32 }

/-- The recomputed sums of an output entry: every failing group of it (R101). -/
def ParcelState.recomputed (ps : ParcelState) (l id : Nat) (ex : Nat → Int) : ParcelState :=
  (ps.modLot l (fun x => { x with
    outq := x.outq.map (fun v => if v.work.id == id then v.recompute ex else v) })).outputStage l id

/-- RECOMPUTE_ROUTINE: with a recompute event taken, the routine loads the image weights of every failing group, and its DMMs form the
exact sums. They wait while other work is in the DME; in grid mode they are a mode exception (R127). DESIGN CHOICE (log 126): they leave
the image's accumulator entries as they are. -/
def State.recompute (s : State) (p : Pid) : State :=
  let ps := s.parcel p
  let x := recomputeOf ps.swp.fwEvent
  let lot := ps.lot x.1
  if !ps.recomputing || !ps.dme.held.isEmpty then s
  else match lot.outq.find? (fun o => o.work.id == x.2), lot.segment with
    | some o, some (a, seg) =>
      if o.recomputed then s
      else if ps.dme.grid then s.setParcel p (ps.raise 8 2 o.work.tag.toNat 0 ps.pc true)
      else
        let s1 := (o.failing.flatMap (groupRecords a)).foldl (State.routineRecord p o.work.tag.toNat) s
        let ex := exactSum (s.loadedWeight a seg) [] o.work.n ps.swp.recodes
        s1.modParcel p (fun q => ParcelState.recomputed
          { q with dme := o.failing.foldl (fun d _ => d.routineDmms) q.dme, swp := { q.swp with recodes := [] } } x.1 x.2 ex)
    | _, _ => s

/-- RECOMPUTE_ROUTINE. -/
def execRecomputeRoutine (p : Pid) (s : State) : Out := .next (if s.running p then s.recompute p else s)

end Sys2Proof.Machine
end

