-- ==== Sys2Proof/Machine/Load.lean ====
section
/-!
DEFINITION. Loading: the rows LOAD, LOAD_TIMEOUT, MODEL_LOAD, LOT_PROGRAM_START, LOT_PROGRAM_DONE, LOAD_DONE, ADAPTER_PLACE and
MODEL_UNLOAD (11 R338 to R350, R361 to R364; 03 R84 to R89, R94; 08 R245, R246, R250).
-/
namespace Sys2Proof.Machine

/-! ### The end of a load (R340) -/

/-- The key slot of a load (R336). -/
def Load.keySlot (l : Load) : Nat := if l.kind = 1 then 2 + l.slot else 1

/-- A key slot zeroed. -/
def State.zeroKey (s : State) (k : Nat) : State :=
  { s with stk := { s.stk with keys := s.stk.keys.filter (fun x => x.1 ≠ k) } }

/-- A load that has failed: no key, no segment, no programming lot is kept; LOAD_DONE is due with the status. -/
def State.loadFail (s : State) (status : Nat) : State :=
  if s.load.phase = 0 || s.load.ended.isSome then s
  else
    let s1 := s.zeroKey s.load.keySlot
    let s2 := s.load.jobs.foldl (fun (t : State) (j : LotJob) =>
      t.modParcel j.p (fun ps => ps.modLot j.l.val (fun x => { x with prog := .idle }))) s1
    { s2 with
      cal := { s2.cal with active := s2.cal.active.filter (fun (t : Trav) => !t.own || s2.load.kind == 1) }
      net := if s2.load.kind = 1 then s2.net else { s2.net with place := [] }
      model := if s2.load.kind = 1 then
          { s2.model with adapters := s2.model.adapters.filter (fun x => x.1 ≠ s2.load.slot) }
        else s2.model
      load := { s2.load with phase := 6, ended := some status, jobs := [], deed := none, got := [], verified := [] } }

/-! ### LOAD messages (R341 to R343, R440) -/

/-- The link for messages to NEXT: the first live link of the port block nearest the one a message came in on (R440). DESIGN
CHOICE (log 39): nearest by number, the lower one first. -/
def State.chainLink (s : State) (inLink : Nat) : List Nat :=
  let ports := (List.range 16).flatMap (fun k =>
    (if k ≤ inLink / 8 then [inLink / 8 - k] else []) ++ [inLink / 8 + k])
  ((ports.filter (fun k => k < 16)).flatMap (fun k => s.liveLinks.filter (fun l => l / 8 == k))).take 1

/-- A LOAD message forwarded to NEXT unchanged. -/
def State.forward (s : State) (m : AveIn) : State :=
  s.aveSend s.load.next 3 (s.chainLink m.link) {
    chm := m.hdr.chm.toNat
    tenant := m.hdr.tp.toNat
    srcP := m.hdr.srcP.toNat
    dstP := m.hdr.dstP.toNat
    fseq := m.hdr.fseq.toNat
    aux := m.hdr.aux.toNat } ((m.body.take (72 * m.hdr.nrec.toNat)))

/-- Every kept segment verified (R343). -/
def Load.allVerified (l : Load) (segs : List SegEntry) : Bool :=
  segs.zipIdx.all (fun x => !x.1.keptBy l.ordinal || l.verified.contains x.2)

/-- The lots of a placed parcel with the logical lots they are to serve. -/
def State.jobsFor (s : State) (lots : List LotEnt) (lp : Nat) (p : Pid) : List LotJob :=
  ((lots.filter (fun e => e.lp == lp)).zip (s.goodLots p)).map (fun x => {
    lp := lp
    p := p
    l := ⟨x.2 % 18, Nat.mod_lt _ (by decide)⟩
    logical := x.1.lot
    seg := x.1.seg
    thresh := x.1.thresh
    driftMode := x.1.driftMode
    rewrite := false })

/-- The image checks, once every kept segment is verified; then programming (R257, R343). Districts in SPARE that take work
are moved to ACTIVE (R473). -/
def State.startProgramming (s : State) (d : Deed) : State :=
  match d.segs.find? (fun e => e.kind == 1 && e.target == s.load.ordinal) with
  | none => s.loadFail stMalformed
  | some img =>
    match s.checkImage img.addr img.records d.segs d.nengine with
    | .error st => s.loadFail st
    | .ok pl =>
      let lots := lotEnts (s.kindBytes img.addr 5)
      let s1 := ((pl.map (fun x => x.2.d.val)).eraseDups).foldl (fun (t : State) k => t.activate k) s
      { s1 with
        net := { s1.net with place := pl }
        load := { s1.load with phase := 4, jobs := pl.flatMap (fun x => s.jobsFor lots x.1 x.2) } }

/-- The GCM IV of a segment (R335): NONCE as stored, index big-endian. -/
def segIv (nonce i : Nat) : List Byte := leBytes nonce 8 ++ beBytes i 4

/-- Every kept segment of a deed is verified: an adapter is staged; of a base model the image is checked (R257, R342, R343). -/
def State.segmentsDone (s : State) (d : Deed) : State :=
  if s.load.kind = 1 then
    let a : Adapter := {
      tenant := s.load.tenant
      digest := s.load.deedDigest
      segs := d.segs }
    { s with
      load := { s.load with phase := 6 }
      model := { s.model with adapters := Sparse.put s.model.adapters s.load.slot a } }
  else { s with load := { s.load with phase := 3 } }.startProgramming d

/-- A kept segment that is complete: digest, tag and, for VOCAB, form; then the image checks if it was the last one (R342, R400). -/
def State.verifySegment (s : State) (d : Deed) (i : Nat) (e : SegEntry) : State :=
  let body := (List.range e.records).flatMap (fun k => s.stackRead (e.addr + 72 * k) 68)
  let key := (Sparse.get ({} : KeySlot) s.stk.keys s.load.keySlot).key
  if sm3 body != e.digest then s.loadFail stSignature
  else if e.enc && gcmTag (keyBlock key) (segIv d.nonce i) e.head body != leBytes e.tag.toNat 16 then s.loadFail stKey
  else if e.kind == 6 && !s.vocabOk e.addr e.records then s.loadFail stMalformed
  else
    let s1 := { s with load := { s.load with
      verified := s.load.verified ++ [i]
      segDone := s.load.segDone + 1 } }
    if s1.load.allVerified d.segs then s1.segmentsDone d else s1

/-- Records of a segment that this engine keeps. -/
def State.keepRecords (s : State) (m : AveIn) (d : Deed) (i : Nat) (e : SegEntry) : State :=
  let n := m.hdr.nrec.toNat
  let got := Sparse.get 0 s.load.got i
  if s.load.phase ≠ 2 then s
  else if m.hdr.fseq.toNat ≠ got || got + n > e.records then s.loadFail stMalformed
  else
    let s1 := s.stackPut (e.addr + 72 * got) (m.body.take (72 * n))
    let s2 := { s1 with load := { s1.load with got := Sparse.put s1.load.got i (got + n) } }
    if got + n = e.records then s2.verifySegment d i e else s2

/-- A segment message after the deed is verified. -/
def State.segmentMessage (s : State) (m : AveIn) (d : Deed) : State :=
  let i := m.hdr.aux.toNat
  match d.segs[i]? with
  | none => s.loadFail stMalformed
  | some e =>
    if e.target < s.load.ordinal then s.loadFail stMalformed
    else
      let s1 := if e.target ≠ s.load.ordinal && s.load.next ≠ 0x3FFF then s.forward m else s
      if e.keptBy s.load.ordinal then s1.keepRecords m d i e else s1

/-- The deed complete: its checks, the key, and where its segments go; one that has no segment for this engine is verified whole. -/
def State.deedComplete (s : State) (b : List Byte) : State :=
  match s.verifyDeed s.load b with
  | .error st => s.loadFail st
  | .ok (d, key) =>
    let base := if s.load.kind = 1 then 0x480000000 + s.load.slot * 0x12000000 else segBase d.nseg
    let d1 := { d with segs := layOut s.load.ordinal base d.segs }
    let s1 := { s with
      stk := { s.stk with keys := Sparse.put s.stk.keys s.load.keySlot { key := key, nonce := BitVec.ofNat 64 d.nonce } }
      load := { s.load with phase := 2, deed := some d1, envelope := [] } }
    if layEnd s.load.ordinal base d.segs > stackSize then s1.loadFail stMalformed
    else if s1.load.allVerified d1.segs then s1.segmentsDone d1
    else s1

/-- A message of the deed (R341). DEDUCED (log 34): the deed's bytes are the payloads of raw records. -/
def State.deedMessage (s : State) (m : AveIn) : State :=
  if m.hdr.fseq.toNat ≠ s.load.deedRecs then s.loadFail stMalformed
  else
    let s1 := if s.load.next = 0x3FFF then s else s.forward m
    let s2 := if s.load.kind = 1 then s1
      else s1.stackPut (0x5A0000000 + 72 * s.load.deedRecs) (m.body.take (72 * m.hdr.nrec.toNat))
    let b := s2.load.deedBytes ++ payloadOf m
    let s3 := { s2 with load := { s2.load with deedBytes := b, deedRecs := s2.load.deedRecs + m.hdr.nrec.toNat } }
    let n := deedSize (entField b 12 4)
    if b.length ≥ 64 && b.length ≥ n then s3.deedComplete (b.take n)
    else s3

/-- LOAD: what cannot be taken yet is refused and not acknowledged, so that the sender repeats it. -/
def State.loadMessage (s : State) (m : AveIn) : State :=
  let c := s.aveCheck 3 m
  let t := c.1
  if !c.2 then t
  else match t.load.deed with
    | some d =>
      let a := t.aveAccept m
      if !a.2 || m.hdr.aux = 0xFFFFFFFF then a.1 else a.1.segmentMessage m d
    | none =>
      if t.load.phase ≠ 1 || t.load.ended.isSome || m.hdr.aux ≠ 0xFFFFFFFF then t
      else
        let a := t.aveAccept m
        if !a.2 then a.1 else a.1.deedMessage m

/-- LOAD. -/
def execLoad (m : AveIn) (s : State) : Out := .next (s.loadMessage m)

/-- LOAD_TIMEOUT. -/
def execLoadTimeout (s : State) : Out :=
  .next (if s.load.phase = 1 || s.load.phase = 2 then s.loadFail stMalformed else s)

/-! ### Adapters given back (R362) -/

/-- The key, the areas and the slot of an adapter given back. -/
def State.dropAdapter (s : State) (slot : Nat) : State :=
  let s1 := s.zeroKey (2 + slot)
  { s1 with model := { s1.model with adapters := s1.model.adapters.filter (fun x => x.1 ≠ slot) } }

/-- Whether an open step names an adapter. -/
def State.adapterInUse (s : State) (slot : Nat) : Bool :=
  s.serve.steps.any (fun (st : Step) => !st.committed && st.rows.any (fun (w : Row) => w.adapter == slot))

/-- Areas of adapters that were unloaded are given back once no step names them (R362). -/
def State.releaseAdapters (s : State) : State :=
  (s.model.adapters.filter (fun x => x.2.released && !s.adapterInUse x.1)).foldl (fun (t : State) x => t.dropAdapter x.1) s

/-! ### MODEL_LOAD (R338 to R340, R391) -/

/-- Whether a tenant table is taken (R391). -/
def tenantsOk (ts : List TenantOp) : Bool :=
  ts.length == 16 && ts.all (fun t => t.flags.toNat < 2 && t.rsv == 0 && t.maxReq.toNat ≤ 4096 && t.maxPins.toNat ≤ 8192 &&
    (t.flags == 1 || t.rings == 0)) &&
  (List.range 128).all (fun r => (ts.filter (fun t => t.rings.getLsbD r)).length ≤ 1) &&
  (ts.map (fun t => t.ease.toNat)).sum ≤ 256

/-- Whether MODEL_LOAD is well formed. -/
def State.loadOpsOk (s : State) (o : LoadOps) : Bool :=
  o.kind.toNat ≤ 1 && o.envelope.length == 161 && o.ordinal.toNat < 10240 &&
  (o.next.toNat < 10240 || o.next == 0x3FFF) &&
  (if o.kind = 0 then tenantsOk o.tenants && o.slot == 0 && o.tenant == 0
   else o.tenants.length == 16 && o.tenants.all (fun t => tenantBytes t == List.replicate 32 0) && o.slot.toNat < 16 && o.tenant.toNat < 16 &&
     (s.releaseAdapters.model.adapters.lookup o.slot.toNat).isNone)

/-- MODEL_LOAD accepted. -/
def State.modelLoad (s : State) (o : LoadOps) : CmdOut :=
  .ok { s.releaseAdapters with load := {
    phase := 1
    kind := o.kind.toNat
    slot := o.slot.toNat
    tenant := o.tenant.toNat
    ordinal := o.ordinal.toNat
    next := o.next.toNat
    deedDigest := o.deedDigest
    envelope := o.envelope
    tenants := if o.kind = 0 then o.tenants else []
    lastStatus := s.load.lastStatus } }

/-- MODEL_LOAD. -/
def execModelLoad (m : MgmtHdr) (o : LoadOps) (s : State) : Out :=
  .next (s.hostCmd (cmdFor (.modelLoad m o)) (fun t => checked (t.loadOpsOk o)
    (t.load.phase == 0 && (if o.kind = 0 then t.inState [.standby] else t.inState [.loaded, .serving]))
    (fun u => u.modelLoad o) t))

/-! ### Programming a lot (R86, R94, R153, R345 to R349) -/

/-- Column scale c of a LOT segment (R345). -/
def State.segScale (s : State) (a seg c : Nat) : BitVec 16 :=
  BitVec.ofNat 16 (entField (s.lotRecord a seg (8192 + c / 32)) (4 + 2 * (c % 32)) 2)

/-- The outlier words of a LOT segment. -/
def State.segOutliers (s : State) (a seg : Nat) : List Nat :=
  (List.range 240).flatMap (fun k =>
    let r := s.lotRecord a seg (8224 + k)
    (List.range 16).map (fun i => entField r (4 + 4 * i) 4))

/-- Whether a record of N4 weights holds the code 0x8 (R153). -/
def holdsEight (r : List Byte) : Bool := (r.drop 4).any (fun b => b.toNat % 16 == 8 || b.toNat / 16 == 8)

/-- The content checks of a LOT segment (R50, R86, R153, R346). -/
def State.segContentOk (s : State) (a seg : Nat) : Bool :=
  let ws := s.segOutliers a seg
  let used := ws.takeWhile (fun w => w ≠ 0)
  let os := used.map outlierOf
  (List.range 1024).all (fun c => (s.segScale a seg c).toNat / 128 % 256 ≠ 255) &&
  (List.range 8192).all (fun k => !holdsEight (s.lotRecord a seg k)) &&
  (ws.drop used.length).all (fun w => w == 0) &&
  os.all (fun o => !o.kind && o.val ≠ 0 && s.segWeight a seg o.row o.col == 0) &&
  (os.zip (os.drop 1)).all (fun x => 1024 * x.1.row + x.1.col < 1024 * x.2.row + x.2.col)

/-- The job that a lot has to program, at load or in a rewrite. -/
def State.jobOf (s : State) (p : Pid) (l : LotId) : Option LotJob :=
  (s.load.jobs ++ s.model.rewriting).find? (fun (j : LotJob) => j.p == p && j.l == l && !j.programmed)

/-- The segments that programming reads: the load's deed, or the loaded model's. -/
def State.segList (s : State) : List SegEntry :=
  if s.load.phase ≠ 0 && s.load.kind = 0 then (s.load.deed.map Deed.segs).getD [] else s.model.segs

/-- Stack address of a segment. -/
def State.segAddr (s : State) (i : Nat) : Nat := ((s.segList[i]?).map SegEntry.addr).getD 0

/-- Whether a parcel has room for 560 mA more, alone where its ration leaves less (R348). -/
def ParcelState.programRoom (ps : ParcelState) : Bool :=
  (ps.heldMa + 560 ≤ 10 * ps.meter.eff || (10 * ps.meter.eff < 600 && ps.drawsHeld == 0)) && !ps.meter.halt

/-- Whether programming at load has started in district `d`. -/
def State.programStarted (s : State) (d : Nat) : Bool :=
  s.load.jobs.any (fun (k : LotJob) => k.p.d.val == d && (k.programmed || !((s.parcel k.p).lot k.l.val).prog == .idle))

/-- Whether a lot may start to program at load (R348): headroom for 560 mA, alone where the ration leaves less; no earlier lot of the
parcel still to start; and every lower district with lots to program started, unless its parcels have no headroom. -/
def State.mayProgram (s : State) (j : LotJob) : Bool :=
  let ps := s.parcel j.p
  ps.programRoom &&
  (s.programStarted j.p.d.val || s.load.jobs.all (fun (k : LotJob) =>
    !decide (k.p.d.val < j.p.d.val) || s.programStarted k.p.d.val || !(s.parcel k.p).programRoom)) &&
  s.load.jobs.all (fun (k : LotJob) => !(k.p == j.p && k.l.val < j.l.val && !k.programmed &&
    (ps.lot k.l.val).prog == .idle))

/-- LOT_PROGRAM_START. A segment whose content is refused fails the load. -/
def State.lotProgramStart (s : State) (p : Pid) (l : LotId) : State :=
  match s.jobOf p l with
  | none => s
  | some j =>
    let ps := s.parcel p
    if !s.running p || (ps.lot l.val).prog ≠ .idle || ps.health.bollard || ps.mapped l.val then s
    else if j.rewrite then
      if ps.meter.halt then s
      else s.setParcel p (ps.modLot l.val (fun x => { x with prog := .programming true }))
    else if (s.load.phase ≠ 4 && s.load.phase ≠ 5) || !s.mayProgram j then s
    else if !s.segContentOk (s.segAddr j.seg) j.seg then s.loadFail stMalformed
    else s.setParcel p (ps.modLot l.val (fun x => { x with prog := .programming false }))

/-- LOT_PROGRAM_START. -/
def execLotProgramStart (p : Pid) (l : LotId) (s : State) : Out := .next (s.lotProgramStart p l)

/-- The least power of two, as its logarithm, that brings every row sum of a group within −7 to +7 (R94). -/
def groupLog (sums : List Int) : Nat :=
  ((List.range 8).find? (fun k => sums.all (fun x => (rneDiv x (2 ^ k)).natAbs ≤ 7))).getD 7

/-- The weight a drift-reference column holds on a row (R89). -/
def refWeight (j r : Nat) : Int := if r % 64 = 2 * j then 7 else if r % 64 = 2 * j + 1 then -7 else 0

/-- What a lot is to hold: image weights, checksum columns (k of R94), drift-reference columns; and the D_j chosen. -/
structure LotPlan where
  w : List (List Int)
  logs : List Nat
  k : List (List Int)
deriving DecidableEq, Repr

/-- Sum of group `j` of a row. -/
def groupSum (row : List Int) (j : Nat) : Int := ((row.drop (128 * j)).take 128).sum

/-- The plan of a lot from its segment. -/
def State.lotPlan (s : State) (a seg : Nat) : LotPlan :=
  let w := (List.range 1024).map (fun r => (List.range 1024).map (fun c => s.segWeight a seg r c))
  let logs := (List.range 8).map (fun j => groupLog (w.map (fun row => groupSum row j)))
  { w := w
    logs := logs
    k := w.map (fun row => logs.zipIdx.map (fun x => rneDiv (groupSum row x.2) (2 ^ x.1))) }

/-- The weight that data row `r` is to hold in read column `c`. -/
def LotPlan.at_ (x : LotPlan) (r c : Nat) : Int :=
  if c < 1024 then (x.w.getD r []).getD c 0
  else if c < 1032 then (x.k.getD r []).getD (c - 1024) 0
  else refWeight (c - 1032) r

/-- The two levels of a weight (R48). -/
def levelsOf (w : Int) : Nat × Nat := if w < 0 then (0, w.natAbs) else (w.natAbs, 0)

/-- Failed sites of a physical row or column. -/
def failsInCol (fs : List SiteFail) (c : Nat) : Nat := (fs.filter (fun f => f.col == c && decide (f.row < 1024))).length

/-- The columns that take spares (R349 step 1): drift-reference columns with a failed site, data columns with 24 or more. -/
def spareCols (fs : List SiteFail) : List Nat :=
  ((List.range 1040).filter (fun c => (1032 ≤ c && failsInCol fs c ≥ 1) || (c < 1024 && failsInCol fs c ≥ 24))).take 16

/-- The rows that take spares (R349 step 2): 16 or more failed sites in columns that are not replaced. -/
def spareRows (fs : List SiteFail) (cols : List Nat) : List Nat :=
  ((List.range 1024).filter (fun r =>
    (fs.filter (fun f => f.row == r && decide (f.col < 1040) && !cols.contains f.col)).length ≥ 16)).take 16

/-- Remap registers that name some targets (R78). -/
def remapOf (ts : List Nat) : Sparse Word :=
  ((List.range 4).map (fun n => (n, BitVec.ofNat 64
    (((List.range 4).map (fun j => ((ts[4 * n + j]?).map (fun t => (0x8000 + t) * 2 ^ (16 * j))).getD 0)).sum)))).filter
      (fun x => x.2 ≠ 0)

/-- The levels of every cell after programming: planned weights, in spares those of what they replace, and at failed sites what
was read back. Zero pairs are not listed. -/
def cellsOf (x : LotPlan) (rows cols : List Nat) (fs : List SiteFail) : Sparse (Nat × Nat) :=
  (List.range (1040 * 1056)).filterMap (fun key =>
    let pr := key / 1056
    let pc := key % 1056
    let lr := if pr < 1024 then some pr else rows[pr - 1024]?
    let lc := if pc < 1040 then some pc else cols[pc - 1040]?
    let v := match fs.find? (fun f => f.row == pr && f.col == pc), lr, lc with
      | some f, _, _ => (f.lp.toNat, f.ln.toNat)
      | none, some r, some c => levelsOf (x.at_ r c)
      | none, _, _ => (0, 0)
    if v = (0, 0) then none else some (key, v))

/-- An outlier word (R84). DESIGN CHOICE (log 40): VAL has 11 bits; a merged value outside −1,024 to +1,023 is taken modulo 2,048. -/
def outlierWord (r c : Nat) (repair : Bool) (v : Int) : Nat :=
  r * 2 ^ 22 + c * 2 ^ 12 + (if repair then 2 ^ 11 else 0) + (v % 2048).toNat

/-- The outlier list of a lot (R85, R86, R349 step 4): range outliers and, for each failed site in use in a data column, a
repair w − w^a. DESIGN CHOICE (log 40): where both fall on one site, one range outlier entry holds the sum. -/
def mergedOutliers (x : LotState) (plan : LotPlan) (range : List Outlier) (fs : List SiteFail) : List Nat :=
  let failed := (List.range 1024).flatMap (fun r => (List.range 1024).filterMap (fun c =>
    if fs.any (fun f => f.row == physRow x r && f.col == physCol x c) then some (r, c) else none))
  let rep (r c : Nat) : Int := plan.at_ r c - siteWeight x (physRow x r) (physCol x c)
  let base := range.map (fun o => (1024 * o.row + o.col,
    outlierWord o.row o.col false (o.val + (if failed.contains (o.row, o.col) then rep o.row o.col else 0))))
  let more := (failed.filter (fun rc => !range.any (fun o => o.row == rc.1 && o.col == rc.2))).map (fun rc =>
    (1024 * rc.1 + rc.2, outlierWord rc.1 rc.2 true (rep rc.1 rc.2)))
  ((base ++ more).foldl (fun (m : Sparse Nat) e => Sparse.put m e.1 e.2) []).map Prod.snd

/-- The residuals of a group, row by row (R94), from the levels read back. -/
def residuals (x : LotState) (j d : Nat) : List Int :=
  (List.range 1024).map (fun r =>
    let pr := physRow x r
    ((List.range 128).map (fun i => siteWeight x pr (physCol x (128 * j + i)))).sum -
      (2 ^ d : Nat) * siteWeight x pr (physCol x (1024 + j)))

/-- The parcel with a lot programmed: cells, remap entries, scales, correction block and outlier count (R81, R349). A
drift-reference failure left without a spare ends tracking for its group (R89). -/
def ParcelState.programmed (ps : ParcelState) (l : Nat) (plan : LotPlan) (range : List Outlier) (scales : List (BitVec 16))
    (fs : List SiteFail) (j : LotJob) (addr : Nat) : ParcelState × Nat :=
  let cols := spareCols fs
  let rows := spareRows fs cols
  let lost := (List.range 8).filter (fun k => failsInCol fs (1032 + k) ≥ 1 && !cols.contains (1032 + k))
  let bits := BitVec.ofNat 8 ((lost.map (fun k => 2 ^ k)).sum)
  let x0 := ps.lot l
  let x1 := { x0 with
    rowRemap := remapOf rows
    colRemap := remapOf cols
    cells := cellsOf plan rows cols fs }
  let os := mergedOutliers x1 plan range fs
  let x2 := { x1 with
    scales := (scales.zipIdx.map (fun e => (e.2, e.1))).filter (fun e => e.2 ≠ 0)
    segment := some (addr, j.seg)
    prog := .programmed
    noTrack := bits
    driftX := x1.driftX ||| bits
    flag := x1.flag || !lost.isEmpty
    cp := { x1.cp with outliers := os.length, thresh := j.thresh, driftMode := j.driftMode } }
  let eps := plan.logs.zipIdx.map (fun d => (d.1, residuals x2 d.2 d.1))
  let groupD := eps.map (fun e => if e.2.all (fun v => -128 ≤ v && v ≤ 127) then BitVec.ofNat 8 e.1 else (0xFF : Byte))
  let table := (List.range 1024).flatMap (fun r => eps.map (fun e => BitVec.ofInt 8 (e.2.getD r 0)))
  let ps1 := ((ps.setLot l x2).write (cbBase l) groupD).write (cbBase l + 0x1400) table
  (ps1.write (cbBase l + 0x4000) (os.flatMap (fun w => leBytes w 4)), os.length)

/-- A job changed. -/
def State.modJob (s : State) (j : LotJob) (f : LotJob → LotJob) : State :=
  let g := fun (l : List LotJob) => l.map (fun (k : LotJob) => if k.p == j.p && k.l == j.l then f k else k)
  { s with load := { s.load with jobs := g s.load.jobs }, model := { s.model with rewriting := g s.model.rewriting } }

/-- The lowest healthy lot of a parcel that neither serves nor is to serve (R87, R357), and is none of `tried`. -/
def State.spareLot (s : State) (p : Pid) (tried : List Nat := []) : Option LotId :=
  ((s.goodLots p).find? (fun l => !(s.parcel p).mapped l && !tried.contains l && ((s.parcel p).lot l).prog ≠ .programming true &&
    !(s.load.jobs ++ s.model.rewriting).any (fun (j : LotJob) => j.p == p && j.l.val == l))).map
      (fun l => ⟨l % 18, Nat.mod_lt _ (by decide)⟩)

/-- The engine's own traverse of a lot started (R350). -/
def State.ownTraverse (s : State) (p : Pid) (l : LotId) : State :=
  { s with cal := { s.cal with
    next := s.cal.next + 1
    active := s.cal.active ++ [{ id := s.cal.next, scope := 0, d := p.d.val, parcel := p.p.val, lot := l.val, port := 0, own := true }] } }

/-- A lot retired, with its event; one that is retired already stays so. -/
def State.retireLot (s : State) (p : Pid) (l : LotId) : State :=
  if (s.parcel p).health.lotsRetired.getLsbD l.val then s
  else (s.modParcel p (fun ps => { ps with health := { ps.health with
    lotsRetired := ps.health.lotsRetired ||| BitVec.ofNat 18 (2 ^ l.val) } })).event
      { code := 43, severity := 1, d := p.d.val, parcel := p.p.val, lot := l.val }

/-- A rewrite that is over. -/
def State.dropRewrite (s : State) (p : Pid) (l : LotId) : State :=
  { s with model := { s.model with rewriting := s.model.rewriting.filter (fun (k : LotJob) => !(k.p == p && k.l == l)) } }

/-- A lot that cannot be programmed: its job goes to a spare lot that it has not tried, else the load fails NO_SPARE, a rewrite ends;
a lot that was to return to the spares is retired (R87, R357). -/
def State.replaceLot (s : State) (j : LotJob) : State :=
  let s1 := s.modParcel j.p (fun ps => ps.modLot j.l.val (fun x => { x with prog := .idle }))
  if j.rewrite && !j.map then (s1.dropRewrite j.p j.l).retireLot j.p j.l
  else match s1.spareLot j.p (j.l.val :: j.tried) with
  | some l =>
    let s2 := s1.modJob j (fun k => { k with l := l, tried := j.l.val :: j.tried, programmed := false })
    if j.rewrite then s2 else { s2 with load := { s2.load with lotsSpared := s2.load.lotsSpared + 1 } }
  | none =>
    if j.rewrite then s1.dropRewrite j.p j.l else s1.loadFail stNoSpare

/-- LOT_PROGRAM_DONE: spares, repairs, correction block; the lot's traverse starts (R349, R350). More than 4,096 entries send the
work to a spare lot (R87). -/
def State.lotProgramDone (s : State) (p : Pid) (l : LotId) (fs : List SiteFail) : State :=
  match s.jobOf p l with
  | none => s
  | some j =>
    let ps := s.parcel p
    let going := match (ps.lot l.val).prog with | .programming _ => true | _ => false
    if !going || !s.running p then s
    else
      let a := s.segAddr j.seg
      let range := ((s.segOutliers a j.seg).takeWhile (fun w => w ≠ 0)).map outlierOf
      let r := ps.programmed l.val (s.lotPlan a j.seg) range ((List.range 1024).map (s.segScale a j.seg)) fs j a
      if r.2 > 4096 then s.replaceLot j
      else
        let s1 := ((s.setParcel p r.1).modJob j (fun k => { k with programmed := true })).ownTraverse p l
        if j.rewrite then s1
        else { s1 with load := { s1.load with
          lotsDone := s1.load.lotsDone + 1
          phase := if s1.load.jobs.all (fun (k : LotJob) => k.programmed) then 5 else 4 } }

/-- LOT_PROGRAM_DONE. -/
def execLotProgramDone (p : Pid) (l : LotId) (fails : List SiteFail) (s : State) : Out := .next (s.lotProgramDone p l fails)

/-! ### The loaded model (R203, R245, R246, R250, R344, R374) -/

/-- Where the KV region starts: the first multiple of 0x4800_0000 above the segment store (R344). -/
def kvStart (storeEnd : Nat) : Nat := (storeEnd + 0x48000000) / 0x48000000 * 0x48000000

/-- Bytes of each member's part of the KV region. -/
def kvPart (storeEnd members : Nat) : Nat :=
  if members = 0 then 0 else (stackSize - kvStart storeEnd) / members / 1152 * 1152

/-- The share class of a segment: that of its layer for a LOT segment, else unshared (R383; log 131). -/
def Model.segShare (m : Model) (i : Nat) : Nat :=
  match m.lots.find? (fun (e : LotEnt) => e.seg == i) with
  | none => 0
  | some e =>
    let k := 3 + m.layers.findIdx (fun (l : LayerEnt) => l.index == e.layer)
    if k ≤ 511 then k else 0

/-- A stack window that grants reads of a segment (R336, R374). -/
def segWindow (e : SegEntry) (i key share : Nat) : Window :=
  { r := true
    key := if e.enc then key else 0
    share := share
    base := e.addr
    length := 72 * e.records
    segLen := e.records
    first := i }

/-- The windows of a parcel at load. DESIGN CHOICE (log 35): window 0 is the descriptor area (R404), window 1 the member's KV
region for reads (R323, R324), windows 2 to 11 the segments that its descriptors name (R343), and window 12, which only firmware uses,
the member's KV region for its writes. -/
def loadWindows (descs : List (Nat × Nat)) (m : Model) (kvBase kvLen : Nat) : Sparse Window :=
  [(0, { r := true, base := descAddr 0, length := 1024 * 0x28800 })] ++
  (if kvLen = 0 then [] else [(1, { r := true, share := 1, base := kvBase, length := kvLen })]) ++
  descs.zipIdx.filterMap (fun x =>
    if x.1.1 = 2 then (m.segs[x.1.2]?).bind (fun e =>
      if e.addr = 0 then none else some (2 + x.2, segWindow e x.1.2 1 (m.segShare x.1.2)))
    else none) ++
  (if kvLen = 0 then [] else [(12, { r := true, w := true, share := 1, base := kvBase, length := kvLen })])

/-- PARAM0 to PARAM15 of a parcel (R203, R246). -/
def State.loadParams (s : State) (lp : Nat) (p : Pid) (e : ParcelEnt) (img kvBase nparcel : Nat) (segs : List SegEntry) :
    Sparse Word :=
  let v := fun (n : Nat) => BitVec.ofNat 64 n
  [(0, v (s.fab.engineId % 2 ^ 14 * 2 ^ 48 + nparcel * 2 ^ 32 + lp / 128 * 2 ^ 16 + lp)),
   (1, v img),
   (2, v (0x48000000 + p.key * 0x10000)),
   (3, v kvBase),
   (4, v (e.hgFirst * 2 ^ 32 + e.hgSize * 2 ^ 16 + e.hgPos)),
   (5, v ((s.clk.frame + 1) % 2 ^ 32 * 2 ^ 32 + e.offset))] ++
  e.descs.zipIdx.map (fun d => (6 + d.2, descValue segs s.engineOf d.1))

/-- This engine's IMAGE segment. -/
def State.modelImage (s : State) : Option SegEntry :=
  s.model.segs.find? (fun e => e.kind == 1 && e.target == s.model.ordinal)

/-- Base and length of a logical parcel's part of the KV region (R344): members of head groups share it in ascending order. -/
def State.kvPlace (s : State) (lp : Nat) : Nat × Nat :=
  let members := ((s.model.parcels.zipIdx).filter (fun x => x.1.hgSize ≠ 0)).map Prod.snd
  let top := layEnd s.model.ordinal (segBase s.model.segs.length) s.model.segs
  let part := kvPart top members.length
  if members.contains lp then (kvStart top + members.idxOf lp * part, part) else (kvStart top, 0)

/-- The deciphered bytes of an adapter segment (R335). -/
def State.adapterBytes (s : State) (slot i : Nat) (e : SegEntry) : List Byte :=
  (List.range e.records).flatMap (fun k =>
    let r := s.stackRead (e.addr + 72 * k) 68
    if e.enc then cipherBytes (Sparse.get {} s.stk.keys (2 + slot)) i (68 * k) r else r)

/-- Adapter areas of a logical parcel written into a parcel. -/
def State.adapterCopy (s : State) (lp : Nat) (ps : ParcelState) : ParcelState :=
  (s.model.adapters.filter (fun x => x.2.placed && !x.2.released)).foldl (fun (a : ParcelState) x =>
    x.2.segs.zipIdx.foldl (fun (b : ParcelState) e =>
      if e.1.parcel = lp && e.1.keptBy s.model.ordinal then b.write e.1.offset (s.adapterBytes x.1 e.2 e.1) else b) a) ps

/-- A parcel made ready for a logical parcel of the model: registers, code, data, lot map; its sweeper leaves reset. `jobs` are
the lots that serve it. -/
def State.loadParcel (s : State) (lp : Nat) (p : Pid) (jobs : List LotJob) : State :=
  match s.modelImage, s.model.parcels[lp]? with
  | some img, some e =>
    let h := s.imgHeadAt img.addr
    let dir := s.imgDir img.addr
    let bytes (k : Nat) : List Byte :=
      ((dir.find? (fun x => x.kind == k && x.count == e.role)).map (s.sectBytes img.addr)).getD []
    let kv := s.kvPlace lp
    let params := s.loadParams lp p e img.addr kv.1 h.nparcel s.model.segs
    s.modParcel p (fun ps =>
      let ps1 := { ps with
        swp := { inReset := false, param := params }
        cls := h.draws.zipIdx.map (fun (d : Nat × Nat) => (d.2, if d.1 = 0 then defaultDraw d.2 else d.1))
        win := loadWindows e.descs s.model kv.1 kv.2
        kv := { cfg := if e.hgSize = 0 then 0 else Sparse.get 0 params 6 &&& kvCfgMask }
        dme := { ps.dme with acc := [] }
        map := (jobs.filter (fun (j : LotJob) => j.p == p)).foldl (fun (m : Sparse (BitVec 8)) (j : LotJob) =>
          Sparse.put m j.logical (BitVec.ofNat 8 (128 + j.l.val))) []
        mapStaged := []
        mapArm := false
        lane := {}
        tokens := []
        reports := [] }
      s.adapterCopy lp (((ps1.write 0x530000 (bytes 1)).write 0x550000 (bytes 2)).write 0x566000
        (s.residencyBitmap s.model.streamed)))
  | _, _ => s

/-- The residency bitmap of the modes now in force in every parcel that hosts work (R354). -/
def State.writeBitmaps (s : State) : State :=
  s.net.place.foldl (fun (t : State) x => t.modParcel x.2 (fun ps => ps.write 0x566000 (s.residencyBitmap s.model.streamed))) s

/-- A deed's GENERATION recorded as accepted (R334, R579). -/
def State.acceptGen (s : State) (d : Deed) : State :=
  { s with nv := { s.nv with gens := s.nv.gens.write (genPut ((s.nv.gens.current).getD []) d.pubId d.modelId d.generation) } }

/-- What the registry takes over of a tenant entry. -/
def tenantOf (o : TenantOp) : Tenant :=
  { ease := o.ease.toNat
    enabled := o.flags == 1
    maxReq := o.maxReq.toNat
    pages := o.pages.toNat
    rings := o.rings
    maxPins := o.maxPins.toNat }

/-- The model in service: parcels, plan, trees, tenants, generation record; the engine is LOADED. -/
def State.enterLoaded (s : State) (d : Deed) (img : SegEntry) : State :=
  let h := s.imgHeadAt img.addr
  let ents := parcelEnts (s.kindBytes img.addr 3)
  let voc := (d.segs.find? (fun e => e.kind == 6)).elim ({} : Vocab) (fun e => s.vocabAt e.addr)
  let model : Model := {
    loaded := true
    ordinal := s.load.ordinal
    next := s.load.next
    nengine := d.nengine
    digest := s.load.deedDigest
    modelId := d.modelId
    generation := d.generation
    nparcel := h.nparcel
    ndist := h.ndist
    kvShare := h.kvShare
    fallbackShare := h.fallback
    segs := d.segs
    layers := layerEnts (s.kindBytes img.addr 4)
    lots := lotEnts (s.kindBytes img.addr 5)
    parcels := ents
    vocab := voc
    loads := s.model.loads + 1
    secret := Config.loadSecret s.model.loads }
  let s1 := { s with model := model }
  let s2 := s1.net.place.foldl (fun (t : State) x => t.loadParcel x.1 x.2 s.load.jobs) s1
  let plan := ((planEnts h.nflow (s.kindBytes img.addr 6)).getD []).map (fun f => { f with demoted := true })
  let trees := ((treeEnts h.ntree (s.kindBytes img.addr 7)).getD []).foldl
    (fun (m : Sparse Tree) t => Sparse.put m t.1 t.2) []
  let tens := s.load.tenants.map tenantOf
  let s3 := { s2 with
    net := { s2.net with plan := plan, trees := trees, ease := tens.zipIdx.map (fun (t : Tenant × Nat) => (t.2, t.1.ease)), passes := [] }
    serve := {
      tenants := tens.zipIdx.map (fun (t : Tenant × Nat) => (t.2, t.1))
      finished := s2.serve.finished
      illegal := s2.serve.illegal
      replays := s2.serve.replays
      tokens := s2.serve.tokens
      tokensRest := s2.serve.tokensRest
      cancelIgnored := s2.serve.cancelIgnored
      refused := s2.serve.refused }
    core := { s2.core with st := .loaded } }
  let s4 := (s3.acceptGen d).buildTrees.placePlan
  let s5 := s4.setModes.writeBitmaps
  { s5 with load := { s5.load with
    demoted := (s5.net.plan.filter (fun (f : PlanFlow) => !f.placed)).length
    slip := s5.net.maxSlip } }

/-- LOAD_DONE sent, and the load over. -/
def State.sendLoadDone (s : State) (status : Nat) : State :=
  let l := s.load
  let s1 := { s with load := { l with phase := 0, lastStatus := status, ended := none, jobs := [], deedBytes := [], envelope := [] } }
  s1.notify 0x8100 status (leBytes l.segDone 4 ++ leBytes l.lotsDone 4 ++ leBytes l.lotsSpared 2 ++ leBytes l.demoted 2 ++
    leBytes l.slip 2)

/-- LOAD_DONE: a load that has failed ends with its status; a base model whose lots are programmed and traversed enters service;
an adapter's load ends when its segments are staged. -/
def State.loadDone (s : State) : State :=
  let l := s.load
  match l.ended, l.deed with
  | some st, _ => s.sendLoadDone st
  | none, some d =>
    if l.kind = 1 then if l.phase = 6 then (s.acceptGen d).sendLoadDone stOk else s
    else if (l.phase = 4 || l.phase = 5) && l.jobs.all (fun (j : LotJob) => j.programmed && j.traversed) &&
        s.net.place.all (fun x => s.running x.2) then
      match d.segs.find? (fun e => e.kind == 1 && e.target == l.ordinal) with
      | some img => (s.enterLoaded d img).sendLoadDone stOk
      | none => s
    else s
  | none, none => s

/-- LOAD_DONE. -/
def execLoadDone (s : State) : Out := .next s.loadDone

/-! ### Adapters (R360 to R362) -/

/-- ADAPTER_PLACE: the segments of a staged adapter go into the SRAM of their parcels. -/
def State.adapterPlace (s : State) (slot : Nat) : State :=
  match s.model.adapters.lookup slot with
  | none => s
  | some a =>
    if a.placed || a.released then s
    else
      let s1 := a.segs.zipIdx.foldl (fun (t : State) x =>
        match t.net.place.lookup x.1.parcel with
        | none => t
        | some p =>
          if x.1.keptBy s.model.ordinal then t.modParcel p (fun ps => ps.write x.1.offset (s.adapterBytes slot x.2 x.1))
          else t) s
      { s1 with model := { s1.model with adapters := Sparse.put s1.model.adapters slot { a with placed := true } } }

/-- ADAPTER_PLACE. -/
def execAdapterPlace (slot : Fin 16) (s : State) : Out := .next (s.adapterPlace slot.val)

/-! ### MODEL_UNLOAD (R362, R363) -/

/-- The base model unloaded: STANDBY. Districts that the registry took from SPARE go back (R473). -/
def State.unloadBase (s : State) (erase : Bool) : State :=
  let s1 := if s.load.phase ≠ 0 then s.loadFail stCancelled else s
  { s1 with
    core := { s1.core with st := .standby }
    parcels := s1.parcels.map (fun x => (x.1, x.2.unloaded erase))
    dists := s1.dists.map (fun x => (x.1, x.2.workLeft))
    recov := { s1.recov with covered := [], unhosted := [], restoring := [] }
    stk := { s1.stk with keys := s1.stk.keys.filter (fun x => x.1 = 0) }
    net := { s1.net with
      flits := []
      place := []
      placeNext := none
      plan := []
      trees := []
      routes := []
      ease := []
      treesDue := false
      passes := []
      maxG := 0
      maxSlip := 0 }
    load := { s1.load with deed := none }
    model := { loads := s1.model.loads }
    cal := { s1.cal with active := s1.cal.active.filter (fun (t : Trav) => !t.own) }
    serve := {
      illegal := s1.serve.illegal
      replays := s1.serve.replays
      tokens := s1.serve.tokens
      tokensRest := s1.serve.tokensRest
      cancelIgnored := s1.serve.cancelIgnored
      refused := s1.serve.refused } }

/-- An adapter unloaded: it cannot be named any more; its key is zeroed; the requests that name it are to complete RESOURCE_REVOKED at
their commit point (R362, R408). -/
def State.unloadAdapter (s : State) (slot : Nat) : State :=
  let s1 := if s.load.phase ≠ 0 && s.load.kind = 1 && s.load.slot = slot then s.loadFail stCancelled else s
  let s2 := s1.zeroKey (2 + slot)
  ({ s2 with
    model := { s2.model with adapters := s2.model.adapters.map (fun (x : Nat × Adapter) =>
      if x.1 = slot then (x.1, { x.2 with released := true }) else x) }
    serve := { s2.serve with reqs := s2.serve.reqs.map (fun (r : Request) =>
      if r.adapter = slot then { r with end_ := some (r.end_.getD stRevoked) } else r) } }).releaseAdapters

/-- MODEL_UNLOAD. -/
def execModelUnload (m : MgmtHdr) (kind slot flags : BitVec 8) (s : State) : Out :=
  .next (s.hostCmd
    (cmdFor (.modelUnload m kind slot flags))
    (fun t => checked
      (kind.toNat ≤ 1 && flags.toNat ≤ 1 && (if kind = 0 then slot == 0 else
        slot.toNat < 16 && ((t.model.adapters.lookup slot.toNat).any (fun (a : Adapter) => !a.released) ||
          (t.load.phase ≠ 0 && t.load.kind = 1 && t.load.slot = slot.toNat))))
      (if kind = 0 then t.inState [.loaded] else t.inState [.loaded, .serving])
      (fun u => .ok (if kind = 0 then u.unloadBase (flags == 1) else u.unloadAdapter slot.toNat)) t))

end Sys2Proof.Machine
end

