-- ==== Sys2Proof/Machine/Spares.lean ====
section
/-!
DEFINITION. Spares: the rows PARCEL_REPLACED, COVER_BRING_IN, DISTRICT_RESTORED and HOLE_SENSE (09 R262, R273 to R276; 15 R465,
R472, R473; 19 R553 to R560).
-/
namespace Sys2Proof.Machine

/-! ### Spare parcels (R20, R553, R554) -/

/-- The placement that the next pass boundary makes. -/
def State.nextPlace (s : State) : Sparse Pid := s.net.placeNext.getD s.net.place

/-- Whether a parcel is free to take work: it can take work and hosts none, now or from the next pass on. -/
def State.isSpare (s : State) (p : Pid) : Bool :=
  s.parcelOk p && !s.nv.fused.getLsbD p.d.val && !(s.dist p.d.val).retired &&
  !s.net.place.any (fun x => x.2 == p) && !s.nextPlace.any (fun x => x.2 == p) &&
  !s.recov.restoring.any (fun (r : Restore) => r.p == p)

/-- Whether a district in SPARE can be moved to ACTIVE for a replacement, or is on its way there (R473). -/
def DistState.canJoin (x : DistState) : Bool := x.st == .spare && (!x.busy || x.granted)

/-- Spare parcels in the order of R554: by district steps from `d`, then district, then parcel; those of ACTIVE districts before those of
districts in SPARE. The sets are computed where they are needed (log 41). -/
def State.spareOrder (s : State) (d : Nat) : List Pid :=
  let ds (ok : DistState → Bool) : List Nat := (List.range 60).filter (fun e => ok (s.dist e) && s.live e && !s.net.holes.contains e)
  let near (ok : DistState → Bool) : List Nat := (List.range 16).flatMap (fun k => (ds ok).filter (fun e => distSteps d e == k))
  (near (fun x => x.st == .active) ++ near DistState.canJoin).flatMap (fun e => (districtPids e).filter s.isSpare)

/-- Whether a parcel can be powered within its district's budget beside some others that are chosen already (R455, R554). -/
def State.fitsBudget (s : State) (chosen : List Pid) (p : Pid) : Bool :=
  let mode := (s.dist p.d.val).mode
  let mine := (s.poweredPids p.d.val ++ chosen.filter (fun q => q.d == p.d) ++ [p]).eraseDups
  budgetOk (s.loadOf mine mode)

/-- The first `n` spare parcels of a list that fit their districts' budgets. -/
def State.chooseSpares (s : State) : List Pid → Nat → List Pid → List Pid
  | [], _, chosen => chosen
  | p :: ps, n, chosen =>
    if chosen.length ≥ n then chosen
    else if s.fitsBudget chosen p then s.chooseSpares ps n (chosen ++ [p])
    else s.chooseSpares ps n chosen

/-- The headroom test of a bring-in: the units replaced count as headroom (R555). -/
def State.bringInOk (s : State) (new old : List Pid) : Bool :=
  let load := fun (l : List Pid) => (l.map (fun p => (s.parcel p).load (s.dist p.d.val).mode)).sum
  pOn (load (new.filter (fun p => !(s.parcel p).reg.on))) false + 1000 * s.pwr.pmax + (s.pwr.reserves.map Reserve.mw).sum ≤
    1000 * s.capEff + pOn (load old) false

/-! ### Bringing in (R465, R556, R557) -/

/-- Lots for a logical parcel to program in the background on a parcel that takes it over. -/
def State.rewriteJobs (s : State) (lp : Nat) (q : Pid) : List LotJob :=
  (s.jobsFor s.model.lots lp q).map (fun (j : LotJob) => { j with rewrite := true })

/-- A spare parcel brought in for a logical parcel: RATION, regulator, registers, code; a district in SPARE is moved to ACTIVE for it
(R473); the placement follows at the next pass boundary. -/
def State.bringIn (s : State) (lp : Nat) (old q : Pid) (cover : Bool) : State :=
  let s1 := (s.activate q.d.val).modParcel q (fun ps =>
    { ps.powered (s.dist q.d.val).mode with
      meter := { ps.meter with ration := (s.parcel old).meter.ration }
      health := { ps.health with cover := cover } })
  let s2 := s1.loadParcel lp q []
  { s2 with
    net := { s2.net with placeNext := some (Sparse.put s2.nextPlace lp q) }
    recov := { s2.recov with unhosted := s2.recov.unhosted.filter (fun k => k ≠ lp) } }

/-- Logical parcels that nothing hosts: NO_SPARE; requests complete with RESOURCE_REVOKED (R560). -/
def State.unhost (s : State) (lps : List Nat) (d : Nat) : State :=
  let new := lps.filter (fun k => !s.recov.unhosted.contains k)
  if new.isEmpty then s
  else
    let s1 := { s with recov := { s.recov with unhosted := s.recov.unhosted ++ new } }
    ((s1.event { code := 44, status := stNoSpare, severity := 1, d := d }).revokeAll stRevoked).drainEnd

/-- Swaps staged in a parcel are discarded; its rewrites end (R563). -/
def State.dropRewrites (s : State) (p : Pid) : State :=
  let s1 := s.modParcel p (fun ps => { ps with mapStaged := [], mapArm := false })
  { s1 with model := { s1.model with rewriting := s1.model.rewriting.filter (fun (j : LotJob) => j.p ≠ p) } }

/-- The replacement of a parcel by the nearest spare: its lots are programmed in the background (R557). -/
def State.replaceWith (s : State) (lp : Nat) (p q : Pid) : State :=
  let s1 := (s.dropRewrites p).bringIn lp p q false
  let s2 := { s1 with
    model := { s1.model with rewriting := s1.model.rewriting ++ s1.rewriteJobs lp q }
    recov := { s1.recov with swaps := satAdd 16 s1.recov.swaps 1 } }
  s2.event { code := 35, severity := 1, d := p.d.val, parcel := p.p.val }

/-- PARCEL_REPLACED: a fenced parcel's logical parcel goes to a spare; without one it is unhosted (R557, R560). -/
def State.parcelReplaced (s : State) (p : Pid) : State :=
  match s.logicalAt p with
  | none => s
  | some lp =>
    if !s.model.loaded || !(s.parcel p).health.bollard || s.nextPlace.lookup lp ≠ some p then s
    else match (s.chooseSpares (s.spareOrder p.d.val) 1 []).head? with
      | none => s.unhost [lp] p.d.val
      | some q => if s.bringInOk [q] [p] then s.replaceWith lp p q else s

/-- PARCEL_REPLACED. -/
def execParcelReplaced (p : Pid) (s : State) : Out := .next (s.parcelReplaced p)

/-! ### Covers (R558) -/

/-- Logical parcels of a district that are not moved away yet. -/
def State.stranded (s : State) (d : Nat) : List (Nat × Pid) := s.nextPlace.filter (fun x => x.2.d.val == d)

/-- Covers brought in for some logical parcels of a district. -/
def State.coverWork (s : State) (d : Nat) (work : List (Nat × Pid)) (covers : List Pid) : State :=
  (work.zip covers).foldl (fun (t : State) x =>
    let u := (t.dropRewrites x.1.2).bringIn x.1.1 x.1.2 x.2 true
    { u with recov := { u.recov with covered := u.recov.covered.filter (fun c => c.1 ≠ x.1.1) ++ [(x.1.1, d)] } }) s

/-- COVER_BRING_IN: the work of a district that is a hole moves to covers; what finds none is unhosted. -/
def State.coverBringIn (s : State) (d : Nat) : State :=
  let work := s.stranded d
  if (s.live d && !s.net.holes.contains d) || work.isEmpty || !s.model.loaded then s
  else
    let covers := s.chooseSpares (s.spareOrder d) work.length []
    if !s.bringInOk covers (work.map Prod.snd) then s
    else
      let s1 := s.coverWork d work covers
      let s2 := { s1 with recov := { s1.recov with evacuations := satAdd 16 s1.recov.evacuations 1 } }
      let s3 := s2.event { code := 36, severity := 1, d := d }
      s3.unhost ((work.drop covers.length).map Prod.fst) d

/-- COVER_BRING_IN. -/
def execCoverBringIn (d : DistId) (s : State) : Out := .next (s.coverBringIn d.val)

/-! ### Restoring a district (R472, R559) -/

/-- The work that a district's restoration moves: what covers host for it, or what it hosts itself while a command takes its
power away. -/
def State.workOf (s : State) (d : Nat) : List Nat :=
  let c := (s.recov.covered.filter (fun x => x.2 == d)).map Prod.fst
  if c.isEmpty && (s.dist d).busy then (s.stranded d).map Prod.fst else c

/-- The restoration begun: the SPARE district is moved to ACTIVE and its lots are to be programmed. -/
def State.startRestore (s : State) (d spare : Nat) : State :=
  let work := s.workOf d
  let need := fun k => (s.model.lots.filter (fun (e : LotEnt) => e.lp == work.getD k 0)).length
  match s.takeParcels need work.length 0 ((districtPids spare).filter s.isSpare) with
  | none => s
  | some ps =>
    let pairs := ps.map (fun x => (work.getD x.1 0, x.2))
    let s1 := s.activate spare
    { s1 with
      model := { s1.model with rewriting := s1.model.rewriting ++ pairs.flatMap (fun x => s.rewriteJobs x.1 x.2) }
      recov := { s1.recov with restoring := s1.recov.restoring ++ pairs.map (fun x =>
        { from_ := d, lp := x.1, p := x.2 }) } }

/-- The restoration ended: the work moves to the district at the next pass boundary, with its lots mapped. -/
def State.endRestore (s : State) (d : Nat) (rs : List Restore) : State :=
  let jobs := s.model.rewriting
  let s1 := rs.foldl (fun (t : State) r => t.loadParcel r.lp r.p jobs) s
  let s2 := { s1 with
    net := { s1.net with placeNext := some (rs.foldl (fun (m : Sparse Pid) (r : Restore) => Sparse.put m r.lp r.p) s1.nextPlace) }
    model := { s1.model with rewriting := s1.model.rewriting.filter (fun (j : LotJob) =>
      !rs.any (fun (r : Restore) => r.p == j.p)) }
    recov := { s1.recov with
      covered := s1.recov.covered.filter (fun x => x.2 ≠ d)
      restoring := s1.recov.restoring.filter (fun (r : Restore) => r.from_ ≠ d)
      unhosted := s1.recov.unhosted.filter (fun k => !rs.any (fun (r : Restore) => r.lp == k)) } }
  let s3 := s2.event { code := 37, d := d }
  if s3.core.st = .loaded && s3.serve.steps.isEmpty then s3.boundary else s3

/-- DISTRICT_RESTORED, a step of the registry that repeats (log 43): it begins the restoration of a district's work on one in
SPARE, and ends it once every lot there is programmed and traversed. -/
def State.districtRestored (s : State) (d spare : Nat) : State :=
  let rs := s.recov.restoring.filter (fun (r : Restore) => r.from_ == d)
  if !s.model.loaded then s
  else if rs.isEmpty then
    if (s.dist spare).st == .spare && !(s.dist spare).busy && !(s.workOf d).isEmpty && d ≠ spare then s.startRestore d spare
    else s
  else if rs.all (fun (r : Restore) => r.p.d.val == spare && s.running r.p &&
      (s.model.rewriting.filter (fun (j : LotJob) => j.p == r.p)).all (fun (j : LotJob) => j.traversed)) then
    s.endRestore d rs
  else s

/-- DISTRICT_RESTORED. -/
def execDistrictRestored (d spare : DistId) (s : State) : Out := .next (s.districtRestored d.val spare.val)

/-! ### Holes (R273, R275, R498) -/

/-- Whether a district counts as a hole itself already, not only as one that R273 added. -/
def Net.knowsHole (n : Net) (d : Nat) : Bool := (n.holes.take (n.holes.length - n.unreach)).contains d

/-- The hole broadcast on VC4 to every warden, the registry's among them, by the lowest-numbered neighbouring warden (R275; log 137). -/
def State.broadcastHole (s : State) (d : Nat) : State :=
  let ws := (List.range 60).filter (fun e => (s.dist e).live)
  match (distNbrs d).map Prod.snd |>.filter (fun e => s.live e && (s.dist e).live) |>.min? with
  | none => s
  | some w => (ws.filter (fun e => e ≠ w)).foldl (fun (t : State) e => t.sendMgmt w e (.hole d)) s

/-- HOLE_SENSE: the neighbours of a district whose feeder dropped mark it dead and mask its clock node; the hole is broadcast and
every table is installed anew. -/
def State.holeSense (s : State) (d : Nat) : State :=
  if s.live d || s.net.knowsHole d then s
  else (((s.markDead d true).maskNode d true).broadcastHole d).recomputeHoles

/-- HOLE_SENSE. -/
def execHoleSense (d : DistId) (s : State) : Out := .next (s.holeSense d.val)

end Sys2Proof.Machine
end

