-- ==== Sys2Proof/Machine/Lots.lean ====
section
/-!
DEFINITION. Lots in service: the rows LAYER_SET_RESIDENCY, REWRITE, BACKGROUND_BEAT, TRAVERSE, TRAVERSE_DONE and RESID_CHECK (11
R355 to R359; 18 R523 to R541).
-/
namespace Sys2Proof.Machine

/-! ### Rewrites (R357, R359) -/

/-- The logical lot that an active entry gives physical lot `l`. -/
def ParcelState.logicalOf (ps : ParcelState) (l : Nat) : Option Nat :=
  (List.range 16).find? (fun i => ps.mapEntry i == some l)

/-- The staged map to build on: the staged one where a copy is armed, else the active one (R363: two swaps share one map). -/
def ParcelState.mapBase (ps : ParcelState) : Sparse (BitVec 8) := if ps.mapArm then ps.mapStaged else ps.map

/-- A logical lot's entry staged and the copy armed. -/
def ParcelState.stageEntry (ps : ParcelState) (i : Nat) (b : BitVec 8) : ParcelState :=
  { ps with mapStaged := Sparse.put ps.mapBase i b, mapArm := true }

/-- A rewrite job added. -/
def State.addJob (s : State) (j : LotJob) : State :=
  { s with model := { s.model with rewriting := s.model.rewriting ++ [j] } }

/-- The job that brings logical lot `e` onto physical lot `l` of parcel `p`. -/
def jobFor (e : LotEnt) (p : Pid) (l : LotId) (map : Bool) : LotJob :=
  { lp := e.lp
    p := p
    l := l
    logical := e.lot
    seg := e.seg
    thresh := e.thresh
    driftMode := e.driftMode
    rewrite := true
    map := map }

/-- The rewrite of a mapped lot: to a spare lot; without one its layer is kept streamed, and then, from the pass that streams it on,
it is unmapped (R357, R359). -/
def State.rewriteMapped (s : State) (p : Pid) (e : LotEnt) : State :=
  match s.spareLot p with
  | some l => s.addJob (jobFor e p l true)
  | none =>
    if !s.model.forced.contains e.layer then
      { s with model := { s.model with forced := s.model.forced ++ [e.layer] } }
    else if s.model.streamed.contains e.layer then s.modParcel p (fun ps => ps.stageEntry e.lot 0)
    else s

/-- REWRITE, a step of the registry that repeats (log 43): a mapped lot is swapped; an unmapped one is programmed, for the logical
lot that nothing serves, else to return to the spares with the segment it held. -/
def State.rewrite (s : State) (p : Pid) (l : LotId) : State :=
  match s.logicalAt p with
  | none => s
  | some lp =>
    let ps := s.parcel p
    let ents := s.model.lots.filter (fun (e : LotEnt) => e.lp == lp)
    let busy := fun (i : Nat) => s.model.rewriting.any (fun (j : LotJob) => j.p == p && j.map && j.logical == i)
    let s1 := s.modParcel p (fun x => { x with reports := x.reports.filter (fun r => r != .lotFlag l) })
    if ps.health.lotsRetired.getLsbD l.val || s.model.rewriting.any (fun (j : LotJob) => j.p == p && j.l == l) then s
    else match ps.logicalOf l.val with
      | some i =>
        match ents.find? (fun (e : LotEnt) => e.lot == i) with
        | some e => if busy i then s1 else s1.rewriteMapped p e
        | none => s1
      | none =>
        match ents.find? (fun (e : LotEnt) => (ps.mapEntry e.lot).isNone && !busy e.lot),
            ents.find? (fun (e : LotEnt) => some e.seg == (ps.lot l.val).segment.map Prod.snd) with
        | some e, _ => s1.addJob (jobFor e p l true)
        | none, some e => s1.addJob (jobFor e p l false)
        | none, none => s1

/-- REWRITE. -/
def execRewrite (p : Pid) (l : LotId) (s : State) : Out := .next (s.rewrite p l)

/-- BACKGROUND_BEAT: a beat of a lot that is rewritten, admitted under R240 while no instruction waits for the meter; it holds
560 mA for eight windows (R358; log 44). -/
def execBackgroundBeat (p : Pid) (l : LotId) (s : State) : Out :=
  .next (
    let ps := s.parcel p
    if s.running p && (ps.lot l.val).prog == .programming true && !ps.meter.stalledInWindow && !ps.meter.halt &&
        !ps.meter.guard && (ps.heldMa + 560 ≤ 10 * ps.meter.eff || ps.drawsHeld == 0) then
      s.setParcel p { ps with meter := { ps.meter with beats := ps.meter.beats ++ [8] } }
    else s)

/-! ### Residency (R355, R356) -/

/-- Lots that a layer's logical lots lack, with the parcels they belong to. -/
def State.missingLots (s : State) (layer : Nat) : List (LotEnt × Option Pid) :=
  ((s.model.lots.filter (fun (e : LotEnt) => e.layer == layer)).map (fun e => (e, s.net.place.lookup e.lp))).filter
    (fun x => !x.2.any (fun p => ((s.parcel p).mapEntry x.1.lot).any (fun l => !((s.parcel p).lot l).stale)))

/-- A missing lot given a job, where a lot is free. -/
def State.mapLot (s : State) (e : LotEnt) (p : Pid) : Option State :=
  if s.model.rewriting.any (fun (j : LotJob) => j.p == p && j.map && j.logical == e.lot) then some s
  else (s.spareLot p).map (fun l => s.addJob (jobFor e p l true))

/-- Every missing lot of a layer given a job; none where one cannot be mapped. -/
def State.mapAll : List (LotEnt × Option Pid) → State → Option State
  | [], s => some s
  | (_, none) :: _, _ => none
  | (e, some p) :: r, s => (s.mapLot e p).bind (State.mapAll r)

/-- The mode the host sets; in LOADED it takes effect at once. -/
def State.setResidency (s : State) (layer : Nat) (streamed : Bool) : State :=
  let s1 := { s with model := { s.model with hostMode := Sparse.put s.model.hostMode layer streamed } }
  s1.atOnce

/-- LAYER_SET_RESIDENCY. -/
def execLayerSetResidency (m : MgmtHdr) (layer : BitVec 16) (mode : BitVec 8) (s : State) : Out :=
  .next (s.hostCmd (cmdFor (.layerSetResidency m layer mode)) (fun t =>
    let known := t.model.layers.any (fun (l : LayerEnt) => l.index == layer.toNat)
    let legal := t.inState [.loaded, .serving]
    checked (mode.toNat ≤ 1 && (known || !legal)) legal (fun u =>
      if mode = 1 then .ok (u.setResidency layer.toNat true)
      else match State.mapAll (u.missingLots layer.toNat) u with
        | none => .say u stNoSpare
        | some v => .ok (v.setResidency layer.toNat false)) t))

/-! ### TRAVERSE (R525 to R529) -/

/-- Whether a traverse's operands name units that exist. -/
def State.travOk (s : State) (scope d parcel lot port : Nat) : Bool :=
  match scope with
  | 0 => d < 60 && parcel < 144 && lot < 18 && !s.nv.fused.getLsbD d
  | 1 => d < 60 && parcel < 144 && !s.nv.fused.getLsbD d
  | 2 => d < 60 && !s.nv.fused.getLsbD d
  | 3 => port < 16
  | 4 => d < 60 && !s.nv.fused.getLsbD d
  | _ => false

/-- Whether two traverses have a unit in common. -/
def Trav.meets (a b : Trav) : Bool :=
  match a.scope, b.scope with
  | 3, 3 => a.port == b.port
  | 3, _ => false
  | _, 3 => false
  | 4, 4 => a.d == b.d
  | 4, 2 => a.d == b.d
  | 2, 4 => a.d == b.d
  | 4, _ => false
  | _, 4 => false
  | 2, _ => a.d == b.d
  | _, 2 => a.d == b.d
  | 0, 0 => a.d == b.d && a.parcel == b.parcel && a.lot == b.lot
  | _, _ => a.d == b.d && a.parcel == b.parcel

/-- A traverse started. -/
def State.startTrav (s : State) (t : Trav) : State :=
  { s with cal := { s.cal with next := s.cal.next + 1, active := s.cal.active ++ [{ t with id := s.cal.next }] } }

/-- DISTRICT scope: the district is a hole and BUSY until the traverse ends (R528). -/
def State.isolate (s : State) (d : Nat) : State :=
  ((s.modDist d (fun x => { x with hole := true, busy := true })).markDead d true).recomputeHoles

/-- PARCEL scope on a parcel that holds work: it is replaced first (R527). -/
def State.vacate (s : State) (p : Pid) : Option State :=
  match s.logicalAt p with
  | none => some s
  | some lp =>
    if s.nextPlace.lookup lp ≠ some p then some s
    else match (s.chooseSpares (s.spareOrder p.d.val) 1 []).head? with
      | none => none
      | some q => some (s.replaceWith lp p q).spoil

/-- The next link of a port under traverse taken down, as a link that goes down by itself; the one before has trained again (R529). -/
def State.retrainNext (s : State) (k : Nat) : State :=
  match s.cal.active.find? (fun (t : Trav) => t.scope == 3 && t.port == k && !t.todo.isEmpty) with
  | none => s
  | some t =>
    let s1 := { s with cal := { s.cal with active := s.cal.active.map (fun (x : Trav) =>
      if x.id = t.id then { x with todo := x.todo.drop 1 } else x) } }
    s1.linkDown (t.todo.headD 128)

/-- A TRAVERSE that is legal, carried out. -/
def State.traverse (s : State) (t : Trav) : CmdOut :=
  let p := pidOf (144 * t.d + t.parcel)
  match t.scope with
  | 0 =>
    let l : LotId := ⟨t.lot % 18, Nat.mod_lt _ (by decide)⟩
    .ok ((if (s.parcel p).mapped t.lot then s.rewrite p l else s).startTrav t)
  | 1 => match s.vacate p with
    | none => .say s stNoSpare
    | some u => .ok (u.startTrav t)
  | 2 => .ok ((s.isolate t.d).startTrav t)
  | 3 => .ok ((s.startTrav { t with todo := s.upLinks t.port }).retrainNext t.port)
  | _ => .ok (s.startTrav t)

/-- Whether the units of a traverse have power (log 45). -/
def State.travPowered (s : State) (t : Trav) : Bool :=
  t.scope == 3 || (forwards (s.dist t.d).st)

/-- TRAVERSE. -/
def execTraverse (m : MgmtHdr) (scope district : BitVec 8) (parcel : BitVec 16) (lot port : BitVec 8) (s : State) : Out :=
  .next (s.hostCmd
    (cmdFor (.traverse m scope district parcel lot port))
    (fun t =>
      let x : Trav := {
        id := 0
        scope := scope.toNat
        d := district.toNat
        parcel := parcel.toNat
        lot := lot.toNat
        port := port.toNat }
      if !t.travOk x.scope x.d x.parcel x.lot x.port then .malformed
      else if !t.inState [.standby, .loaded, .serving, .draining] || t.cal.active.any (fun y => x.meets y) then .illegal 0xFF
      else if x.scope = 2 && ((t.dist x.d).st ≠ .spare || (t.dist x.d).busy) then .illegal (t.dist x.d).st.code
      else if !t.travPowered x then .illegal (t.dist x.d).st.code
      else t.traverse x))

/-! ### What a traverse leaves (R530, R531, R535) -/

/-- The correction block and outlier list after a traverse: column table, drift entries, audit sums, repairs merged. -/
def ParcelState.afterTraverse (ps : ParcelState) (l : Nat) (m : LotMeasure) (words : List Nat) : ParcelState :=
  let rho := fun c => ((m.rho0.lookup c).getD 16384).toNat
  let beta := fun c => ((m.beta0.lookup c).getD 0).toNat
  let table := (List.range 1040).flatMap (fun c => leBytes (beta c) 2 ++ leBytes (rho c) 2)
  let ps1 := ((ps.write (cbBase l + 0x200) table).write (cbBase l + 0x8)
    ((List.range 8).flatMap (fun _ => leBytes 16384 2) ++ List.replicate 16 0)).write (cbBase l + 0x28) (List.replicate 16 0)
  ps1.write (cbBase l + 0x4000) (words.flatMap (fun w => leBytes w 4))

/-- The outlier list with the repairs of a traverse merged (R531). A site that has an entry keeps it with its value corrected by
what the site lost. -/
def mergeRepairs (os : List Outlier) (x : LotState) (w : Nat → Nat → Int) (fs : List SiteFail) : List Nat :=
  let old := os.map (fun o => (1024 * o.row + o.col, o))
  let sites := (List.range 1024).flatMap (fun r => (List.range 1024).filterMap (fun c =>
    (fs.find? (fun f => f.row == physRow x r && f.col == physCol x c)).map (fun f =>
      (r, c, (f.lp.toNat : Int) - (f.ln.toNat : Int)))))
  let new := sites.map (fun s =>
    let key := 1024 * s.1 + s.2.1
    match old.lookup key with
    | some o =>
      if o.kind then (key, outlierWord s.1 s.2.1 true (w s.1 s.2.1 - s.2.2))
      else (key, outlierWord s.1 s.2.1 false (o.val + (siteWeight x (physRow x s.1) (physCol x s.2.1) - s.2.2)))
    | none => (key, outlierWord s.1 s.2.1 true (w s.1 s.2.1 - s.2.2)))
  let base := os.map (fun o => (1024 * o.row + o.col, outlierWord o.row o.col o.kind o.val))
  ((base ++ new).foldl (fun (t : Sparse Nat) e => Sparse.put t e.1 e.2) []).map Prod.snd

/-- Whether a lot whose benchmark cells agree passes (R531), given the length of its outlier list. -/
def lotPasses (m : LotMeasure) (n : Nat) : Bool :=
  decide (n ≤ 4096) && m.rho0.all (fun x => x.1 ≥ 1032 || (12288 ≤ x.2.toNat && x.2.toNat ≤ 20480)) &&
  m.beta0.all (fun x => x.1 ≥ 1032 || x.2.toInt.natAbs ≤ 2048)

/-- The ADC offset figure of a lot (R535). -/
def lotAdc (m : LotMeasure) : Nat :=
  min 255 ((m.beta0.map (fun x => if x.1 < 1032 then x.2.toInt.natAbs else 0)).foldl max 0 / 16)

/-- The residuals of R94 formed again with the D_j in force; a group that no longer fits is not checked. -/
def ParcelState.refit (ps : ParcelState) (l : Nat) : ParcelState :=
  let x := ps.lot l
  let eps := (List.range 8).map (fun j =>
    let d := ps.cbNat l j 1
    (d, if d > 7 then List.replicate 1024 (0 : Int) else residuals x j d))
  let groupD := eps.map (fun e => if e.2.all (fun v => -128 ≤ v && v ≤ 127) then BitVec.ofNat 8 e.1 else (0xFF : Byte))
  let table := (List.range 1024).flatMap (fun r => eps.map (fun e => BitVec.ofInt 8 (e.2.getD r 0)))
  (ps.write (cbBase l) groupD).write (cbBase l + 0x1400) table

/-- A lot's traverse carried into the parcel: the parcel, and whether the lot passes; `bench`: the benchmark cells agree, without which
the stored values stay (R523). `w` are its image weights. A pass clears FLAG and
DRIFT_X (R531); a group whose drift-reference column has failed without a spare stays untracked (R89). DESIGN CHOICE (log 121): a full
drift record that still waits for its fit is dropped with the old drift entries. -/
def ParcelState.lotMeasured (ps : ParcelState) (l : Nat) (bench : Bool) (m : LotMeasure) (w : Nat → Nat → Int) : ParcelState × Bool :=
  let x := ps.lot l
  if !bench then
    (ps.setLot l { x with stale := true, failedLast := true }, false)
  else
    let words := mergeRepairs (outliers ps l) x w m.fails
    let ok := lotPasses m words.length
    let cells := m.fails.foldl (fun (c : Sparse (Nat × Nat)) f =>
      Sparse.put c (1056 * f.row + f.col) (f.lp.toNat, f.ln.toNat)) x.cells
    let y := { x with
      gain := (m.gain.filter (fun (g : Nat × Int) => g.2 ≠ 16384)).foldl (fun (t : Sparse Int) (g : Nat × Int) => Sparse.put t g.1 g.2) []
      offs := (m.offs.filter (fun (g : Nat × Int) => g.2 ≠ 0)).foldl (fun (t : Sparse Int) (g : Nat × Int) => Sparse.put t g.1 g.2) []
      cells := cells
      cp := { x.cp with outliers := min 4096 words.length }
      fits := []
      lmvNumber := 0
      auditNumber := 0
      failedLast := !ok
      adc := lotAdc m }
    let z := if ok then { y with
        stale := false
        flag := false
        driftX := 0
        audits := 0
        resid := 0
        persistSince := 0
        reported := false }
      else { y with stale := true }
    (((ps.setLot l z).afterTraverse l m (words.take 4096)).refit l, ok)

/-- What a lot traverse means for the job it belongs to: on a pass a load's lot is ready, a rewrite's is mapped at the next pass
boundary; on a failure it is programmed again (R531), after two in a row it is retired and a spare lot takes the job. -/
def State.lotTraversed (s : State) (p : Pid) (l : LotId) (ok failedBefore : Bool) : State :=
  let job := (s.load.jobs ++ s.model.rewriting).find? (fun (j : LotJob) => j.p == p && j.l == l && j.programmed && !j.traversed)
  let retire := !ok && failedBefore
  let s1 := if retire then s.retireLot p l else s
  match job with
  | none => if ok || retire then s1 else s1.rewrite p l
  | some j =>
    if retire then s1.replaceLot j
    else if !ok then
      (s1.modParcel p (fun ps => ps.modLot l.val (fun x => { x with prog := .idle }))).modJob j (fun k =>
        { k with programmed := false })
    else
      let s2 := (s1.modParcel p (fun ps => ps.modLot l.val (fun x => { x with prog := .idle }))).modJob j (fun k =>
        { k with traversed := true })
      if !j.rewrite || s2.recov.restoring.any (fun (r : Restore) => r.p == p) then s2
      else
        let s3 := s2.dropRewrite p l
        if !j.map then s3
        else
          let layer := ((s3.model.lots.find? (fun (e : LotEnt) => e.lp == j.lp && e.lot == j.logical)).map LotEnt.layer).getD 0
          let s4 := s3.modParcel p (fun ps => ps.stageEntry j.logical (BitVec.ofNat 8 (128 + l.val)))
          ({ s4 with model := { s4.model with forced := s4.model.forced.filter (fun k => k ≠ layer) } }).atOnce.event
            { code := 42, d := p.d.val, parcel := p.p.val, lot := l.val }

/-- One lot's measurement. -/
def State.lotResult (s : State) (p : Pid) (l : LotId) (bench : Bool) (m : LotMeasure) : State × Bool :=
  let ps := s.parcel p
  if ps.mapped l.val then (s, true)
  else
    let r := ps.lotMeasured l.val bench m (s.imageWeight p l.val)
    ((s.setParcel p r.1).lotTraversed p l r.2 (ps.lot l.val).failedLast, r.2)

/-- The cross-check of a district's benchmark cells, with which a traverse of lot, parcel or district scope begins (R523). -/
def State.benchResult (s : State) (d : Nat) (ok : Bool) : State :=
  if ok then s.modDist d (fun x => { x with benchBad := false })
  else (s.modDist d (fun x => { x with benchBad := true })).event { code := 24, d := d }

/-- A parcel's self-test: on a pass its bollard is lifted and it is a spare; after two failures in a row it is retired (R527, R549). -/
def State.parcelResult (s : State) (p : Pid) (ok : Bool) : State :=
  s.modParcel p (fun ps =>
    if ok then { ps with
      health := { ps.health with bollard := false, failsInRow := 0 }
      rtr := { ps.rtr with fenced := false }
      swp := { ps.swp with exc := false, stopped := false, halted := false } }
    else { ps with health := { ps.health with
      failsInRow := ps.health.failsInRow + 1
      retired := ps.health.retired || decide (ps.health.failsInRow ≥ 1) } })

/-- A voltage sweep's codes. -/
def State.vminResult (s : State) (p : Pid) (a b c d : BitVec 6) : State :=
  s.modParcel p (fun ps => { ps with health := { ps.health with
    vmin3 := min 60 a.toNat
    vmin4 := min 60 b.toNat
    vmin5 := min 60 c.toNat
    vmin8 := min 60 d.toNat } })

/-- The lot entry of a district record (R538). -/
def LotState.record (x : LotState) (retired : Bool) (count : Nat) : LotRec :=
  { rowRemap := x.rowRemap
    colRemap := x.colRemap
    resid := x.resid
    retired := retired
    failedLast := x.failedLast
    adc := x.adc
    count := count }

/-- The record of a parcel; `lots` are those just traversed. -/
def ParcelState.record (ps : ParcelState) (old : ParcelRec) (lots : List LotId) : ParcelRec :=
  { v3 := ps.health.vmin3
    v4 := ps.health.vmin4
    v5 := ps.health.vmin5
    v8 := ps.health.vmin8
    retired := ps.health.retired
    fails := ps.health.failsInRow
    lots := lots.foldl (fun (m : Sparse LotRec) x => Sparse.put m x.val ((ps.lot x.val).record
      (ps.health.lotsRetired.getLsbD x.val) ((Sparse.get {} m x.val).count + 1))) old.lots }

/-- The failed wires of a district's ring-road links taken over by its edge routers (R261, R299): half width above 16, and the most
spare wires in use on a link of each parcel. -/
def State.setWires (s : State) (d : Nat) (wires : Sparse Nat) : State :=
  let links := (List.range 48).map (fun k => (edgeParcel (k / 12) (k % 12), newsBit (k / 12), Sparse.get 0 wires k))
  ((links.map Prod.fst).eraseDups).foldl (fun (t : State) p =>
    let mine := (links.filter (fun x => x.1 == p)).map Prod.snd
    let half := BitVec.ofNat 4 ((mine.map (fun x => if x.2 > 16 then 2 ^ x.1 else 0)).sum)
    let spare := (mine.map (fun x => min 16 x.2)).foldl max 0
    let q := pidOf (144 * d + p)
    if (t.parcel q).rtr.half = half && (t.parcel q).rtr.spareW = spare then t
    else t.modRtr q (fun x => { x with half := half, spareW := spare })) s

/-- The district record written after a traverse in it (R539). -/
def State.writeDistRec (s : State) (d : Nat) (ps : List Pid) (lots : List (Pid × LotId)) (wires : Option (Sparse Nat)) :
    State :=
  let c := Sparse.get ({ a := {}, b := {} } : Copies DistRec) s.nv.calDist d
  let old0 := (c.current).getD {}
  let old := { old0 with wires := wires.getD old0.wires }
  let new := ps.foldl (fun (m : DistRec) p => { m with parcels := Sparse.put m.parcels p.p.val ((s.parcel p).record
    (Sparse.get {} m.parcels p.p.val) ((lots.filter (fun x => x.1 == p)).map Prod.snd)) }) old
  { s with nv := { s.nv with calDist := Sparse.put s.nv.calDist d (c.write new) } }

/-- The port record written (R539). -/
def State.writePortRec (s : State) (k : Nat) (eyes : Sparse (BitVec 8)) : State :=
  let c := Sparse.get ({ a := [], b := [] } : Copies (Sparse (BitVec 8))) s.nv.calPort k
  { s with nv := { s.nv with calPort := Sparse.put s.nv.calPort k (c.write eyes) } }

/-- Eye widths of a port taken over; one below 20/64 UI is an event (R536). -/
def State.setEyes (s : State) (k : Nat) (eyes : List (BitVec 8)) : State :=
  let es := (eyes.take 8).zipIdx.map (fun e => (e.2, e.1))
  let s1 := s.setPort k { s.port k with eyes := es.foldl (fun (m : Sparse (BitVec 8)) e => Sparse.put m e.1 e.2) (s.port k).eyes }
  (es.filter (fun e => decide (0 < e.2.toNat) && decide (e.2.toNat < 20))).foldl (fun (t : State) e =>
    t.event { code := 25, detail := leBytes k 1 ++ leBytes e.1 1 ++ leBytes e.2.toNat 1 }) s1

/-- TRAVERSE_DONE sent (R619); the engine's own traverses have no command to answer. -/
def State.travMessage (s : State) (t : Trav) (status passed failed spread : Nat) : State :=
  let s1 := { s with cal := { s.cal with
    active := s.cal.active.filter (fun (x : Trav) => x.id ≠ t.id)
    traverses := satAdd 16 s.cal.traverses 1
    travFail := satAdd 16 s.cal.travFail failed } }
  if t.own then { s1 with load := { s1.load with spread := max s1.load.spread spread } }
  else s1.notify 0x8101 status (leBytes passed 4 ++ leBytes failed 4 ++ leBytes spread 2)

/-- A DISTRICT traverse over: the district is no hole any more, but for a router fault, and not busy (R528, R558). -/
def State.rejoin (s : State) (t : Trav) : State :=
  if t.scope ≠ 2 then s
  else if (s.dist t.d).routerFault then s.modDist t.d (fun x => { x with busy := false })
  else ((s.modDist t.d (fun x => { x with hole := false, busy := false })).markDead t.d false).recomputeHoles

/-- A traverse stopped by an event (R541): its status is reported and no record is written. -/
def State.stopTrav (s : State) (t : Trav) (status : Nat) : State := (s.travMessage t status 0 0 0).rejoin t

/-- Traverses that meet a condition stopped. -/
def State.stopTraverses (s : State) (p : Trav → Bool) (status : Nat) : State :=
  (s.cal.active.filter p).foldl (fun (u : State) t => u.stopTrav t status) s

/-- What a traverse of SENSORS or DISTRICT scope finds at the four sites: a sensor that measures within range is in use again (R505). -/
def State.siteResult (s : State) (d : Nat) (rs : List (Fin 4 × Bool × Bool)) : State :=
  s.modDist d (fun x => { x with sites := rs.foldl (fun (m : Sparse Site) r =>
    let y := Sparse.get {} m r.1.val
    Sparse.put m r.1.val { y with aFail := y.aFail && !r.2.1, bFail := y.bFail && !r.2.2 }) x.sites })

/-- What a traverse finds of a parcel's sensor (R505). -/
def State.parcelSensor (s : State) (p : Pid) (ok : Bool) : State :=
  s.modParcel p (fun ps => { ps with health := { ps.health with tempFail := ps.health.tempFail && !ok } })

/-- The parcels that a traverse covers. -/
def Trav.pids (t : Trav) : List Pid :=
  match t.scope with
  | 0 => [pidOf (144 * t.d + t.parcel)]
  | 1 => [pidOf (144 * t.d + t.parcel)]
  | 2 => districtPids t.d
  | _ => []

/-- A router fault: the district becomes a hole though its feeder stays on, and the uncommitted steps are replayed (R261, R543, R558). -/
def State.routerFault (s : State) (d : Nat) : State :=
  if (s.dist d).routerFault then s
  else
    let s1 := ((s.modDist d (fun x => { x with hole := true, routerFault := true })).markDead d true).recomputeHoles
    (s1.event { code := 38, severity := 1, d := d }).serviceFault stRevoked

/-- Whether a DISTRICT traverse found a router fault: a failed link within the district, or a ring-road link that cannot run at half width.
DESIGN CHOICE (log 136): of a link's 680 wires it needs 320 data and 24 check wires for that (R261). -/
def foundRouterFault (r : TravResult) : Bool := !r.internalOk || r.links.any (fun x => decide (x.2 > 336))

/-- The lots, of those a result names, that a traverse covers: all 18 of a parcel at PARCEL and DISTRICT scope (R525). -/
def Trav.lotsOf (t : Trav) (r : TravResult) : List (Pid × LotId × LotMeasure) :=
  if t.scope > 2 then [] else r.lots.filter (fun x => t.pids.contains x.1 && (t.scope != 0 || x.2.1.val == t.lot))

/-- The results of a traverse of lot, parcel or district scope taken over, with the units passed and failed (R523, R530 to R532). -/
def State.unitResults (s : State) (t : Trav) (r : TravResult) : State × Nat × Nat :=
  let a := (t.lotsOf r).foldl (fun (v : State × Nat × Nat) x =>
    let y := v.1.lotResult x.1 x.2.1 r.benchOk x.2.2
    (y.1, if y.2 then (v.2.1 + 1, v.2.2) else (v.2.1, v.2.2 + 1))) (s.benchResult t.d r.benchOk, 0, 0)
  if t.scope = 0 then a
  else
    let ps := (r.parcels.filter (fun x => t.pids.contains x.1)).map (fun x => (x.1, x.2 && r.benchOk))
    let s1 := ps.foldl (fun (u : State) x => u.parcelResult x.1 x.2) a.1
    let s2 := if !r.benchOk then s1 else (r.vmin.filter (fun x => t.pids.contains x.1)).foldl
      (fun (u : State) x => u.vminResult x.1 x.2.1 x.2.2.1 x.2.2.2.1 x.2.2.2.2) s1
    (s2, a.2.1 + (ps.filter (fun x => x.2)).length, a.2.2 + (ps.filter (fun x => !x.2)).length)

/-- Whether a traverse still waits for its unit: a lot that serves, a parcel that still holds work (R527). -/
def State.travWaits (s : State) (t : Trav) (r : TravResult) : Bool :=
  (t.scope == 0 && ((t.lotsOf r).isEmpty || t.pids.any (fun p => (s.parcel p).mapped t.lot))) ||
    (t.scope == 1 && t.pids.any (fun p => (s.logicalAt p).isSome))

/-- The links of a traversed port that were not taken down yet go through the same; eye widths are those of the lanes in use (R529). -/
def State.portResult (s : State) (t : Trav) (eyes : List (BitVec 8)) : State :=
  let s1 := t.todo.foldl (fun (u : State) l => u.linkDown l) s
  s1.setEyes t.port ((s1.port t.port).shownEyes eyes)

/-- TRAVERSE_DONE: results taken over unit by unit, records written, the message sent. A lot that still serves waits until it is
unmapped, a parcel until its work has gone (R527). Units counted: lots, parcels, sensor sites, the port (log 42). -/
def State.traverseDone (s : State) (id : Nat) (r : TravResult) : State :=
  match s.cal.active.find? (fun (t : Trav) => t.id == id) with
  | none => s
  | some t =>
    if s.travWaits t r then s
    else
      let a := if t.scope > 2 then (s, 0, 0) else s.unitResults t r
      let sens := if t.scope = 2 || t.scope = 4 then r.sensorsOk else []
      let s1 := if sens.isEmpty then a.1 else a.1.siteResult t.d sens
      let s2 := (r.parcelSensors.filter (fun x => x.1.d.val == t.d && (t.scope == 2 || t.scope == 4 || (t.scope == 1 && t.pids.contains x.1)))).foldl
        (fun (u : State) x => u.parcelSensor x.1 x.2) s1
      let wires := r.links.foldl (fun (m : Sparse Nat) x => Sparse.put m x.1.val (min 17 x.2)) []
      let s3 := if t.scope = 2 then (s2.modDist t.d (fun x => { x with suspect := x.suspect &&& ~~~ r.padsOk })).setWires t.d
          wires else s2
      let s4 := if t.scope = 3 then s3.portResult t r.eyes else s3
      let good := (sens.filter (fun x => x.2.1 && x.2.2)).length
      let s5 := if !r.flashOk then
          ({ s4 with cal := { s4.cal with flashFail := true } }).event { code := 28, d := t.d }
        else if t.scope = 3 then s4.writePortRec t.port (s4.port t.port).eyes
        else s4.writeDistRec t.d (if t.scope = 4 then [] else t.pids) ((t.lotsOf r).map (fun x => (x.1, x.2.1)))
          (if t.scope = 2 then some wires else none)
      let s6 := s5.travMessage t stOk (a.2.1 + good + (if t.scope = 3 then 1 else 0)) (a.2.2 + (sens.length - good))
        (((t.lotsOf r).map (fun x => x.2.2.spread)).foldl max 0)
      (if t.scope = 2 && foundRouterFault r then s6.routerFault t.d else s6).rejoin t

/-- TRAVERSE_DONE. -/
def execTraverseDone (id : Nat) (r : TravResult) (s : State) : Out := .next (s.traverseDone id r)

/-! ### RESID_CHECK (R534) -/

/-- A lot that is due: reported, and its rewrite begins. -/
def State.residLot (s : State) (p : Pid) (l : LotId) : State :=
  let x := (s.parcel p).lot l.val
  if (s.parcel p).mapped l.val && x.audits ≥ 64 && x.resid ≥ 1311 && !x.reported then
    let s1 := s.modParcel p (fun ps => ps.modLot l.val (fun y => { y with reported := true }))
    ({ s1 with cal := { s1.cal with residDue := satAdd 16 s1.cal.residDue 1 } }).rewrite p l
  else s

/-- RESID_CHECK. -/
def execResidCheck (d : DistId) (s : State) : Out :=
  .next (if (s.dist d.val).st ≠ .active then s
    else (districtPids d.val).foldl (fun (t : State) p => (List.range 18).foldl (fun (u : State) l =>
      u.residLot p ⟨l % 18, Nat.mod_lt _ (by decide)⟩) t) s)

end Sys2Proof.Machine
end

