-- ==== Sys2Proof/Machine/Registry.lean ====
section
/-!
DEFINITION. Registry, deputy and wardens: the rows REGISTRY_HEARTBEAT, REGISTRY_TAKEOVER, DEPUTY_SNAPSHOT_DONE, DEPUTY_LOST,
DEPUTY_ACK, WARDEN_COMMAND, WARDEN_HEARTBEAT, WARDEN_LOST and BOLLARD (01 R26 to R40; 11 R363; 13 R410; 18 R541; 19 R544 to R552).
-/
namespace Sys2Proof.Machine

/-! ### Roles (R33, R39) -/

/-- Registry and deputy by the rule of R33, from the announced districts in ascending order. -/
def electRoles (a : List Nat) : Option (Nat × Nat) :=
  match a.filter (fun d => d < 30), a.filter (fun d => d ≥ 30) with
  | r :: _, q :: _ => some (r, q)
  | r :: q :: _, [] => some (r, q)
  | [], r :: q :: _ => some (r, q)
  | _, _ => none

/-- The deputy that a registry names, by the rule of R33 applied to the healthy wardens other than itself: DEDUCED (log 46), the
lowest in 30 to 59, else the lowest. -/
def deputyOf (healthy : List Nat) : Option Nat := (healthy.find? (fun d => d ≥ 30)).or healthy.head?

/-- Districts whose own warden runs, ascending (R551). -/
def State.liveWardens (s : State) : List Nat := (List.range 60).filter (fun d => (s.dist d).live)

/-- Fewer than two live wardens are fatal (R544); the cause is that of R599. -/
def State.wardensLeft (s : State) : State :=
  if s.core.epoch ≠ 0 && s.liveWardens.length < 2 then s.enterFault stNoSpare else s

/-- A new deputy named, and its snapshot begun (R39). -/
def State.nameDeputy (s : State) (healthy : List Nat) : State :=
  match deputyOf healthy with
  | none => { s with core := { s.core with depValid := false, snapshot := false } }
  | some q => { s with core := { s.core with deputy := q, depValid := false, snapshot := true } }

/-- The log records that no deputy will acknowledge any more are written to the checkpoint region (R36; log 24). -/
def State.checkpoint (s : State) : State :=
  let due := s.serve.steps.flatMap (fun (st : Step) =>
    (if !st.logAcked && st.rows.length ≥ st.need then [st.record] else []) ++ (if st.commitAcked then [] else st.commitRec.toList))
  let s1 := due.foldl State.ckptWrite s
  { s1 with serve := { s1.serve with steps := s1.serve.steps.map (fun (st : Step) => { st with
      logAcked := st.logAcked || st.rows.length ≥ st.need
      commitAcked := st.commitAcked || st.commitRec.isSome }) } }

/-! ### Proxies (R38, R550, R551) -/

/-- The district that watches a warden: the lowest-numbered live district adjacent to it whose warden runs. -/
def State.watchers (s : State) (d : Nat) : List Nat :=
  ((List.range 60).filter (fun e => (distNbrs d).any (fun q => q.2 == e))).filter (fun e => s.live e && (s.dist e).live)

/-- Whether a warden proxies for fewer than two districts. -/
def DistState.canProxy (x : DistState) : Bool := x.proxyFor0 == 63 || x.proxyFor1 == 63

/-- A warden's district taken over by a neighbouring warden. -/
def State.proxy (s : State) (d : Nat) : State :=
  let s1 := s.modDist d (fun x => { x with live := false, hbMissed := 0 })
  match (s1.watchers d).find? (fun e => (s1.dist e).canProxy) with
  | none => s1
  | some e =>
    (s1.modDist e (fun x => if x.proxyFor0 = 63 then { x with proxyFor0 := d } else { x with proxyFor1 := d })).modDist d
      (fun x => { x with proxyBy := e })

/-- A proxy ended: the host commanded the district DARK (R551). -/
def State.endProxy (s : State) (d : Nat) : State :=
  let e := (s.dist d).proxyBy
  if e = 63 then s
  else
    (s.modDist e (fun x => { x with
      proxyFor0 := if x.proxyFor0 = d then 63 else x.proxyFor0
      proxyFor1 := if x.proxyFor1 = d then 63 else x.proxyFor1 })).modDist d (fun x => { x with proxyBy := 63 })

/-! ### Takeover (R37 to R40, R410) -/

/-- The epoch raised and broadcast to every warden that runs. -/
def State.raiseEpoch (s : State) : State :=
  let e := (s.core.epoch + 1) % 2 ^ 32
  let s1 := { s with core := { s.core with epoch := e } }
  s1.liveWardens.foldl (fun (t : State) d => t.modDist d (fun x => { x with epochSeen := e })) s1

/-- The output of commits that cannot be shown complete, written again with the same bytes (R410). -/
def State.rewriteOutput (s : State) : State :=
  s.fab.conns.foldl (fun (t : State) c =>
    c.2.unacked.foldl (fun (u : State) (w : RcWrite) => u.rcWrite c.1 w.addr w.rkey w.bytes) t) s

/-- The takeover from step 3 of R37 on: the deputy is the registry, the interrupted step is to be reissued, a load fails. District
`out` is not to be the new deputy. -/
def State.takeover (s : State) (out : Nat) : State :=
  let s1 := ({ s with core := { s.core with registry := s.core.deputy, hbMissed := 0 } }).raiseEpoch
  let s2 := (s1.nameDeputy (s1.liveWardens.filter (fun d => d ≠ s1.core.registry && d ≠ out))).checkpoint
  let s3 := (s2.loadFail stMalformed).rewriteOutput
  (s3.spoil).event { code := 40, severity := 1, d := s3.core.registry }

/-- The loss of the registry: without a valid deputy it is fatal (R39). The cause is that of a fault without one (R614). -/
def State.registryLost (s : State) : State :=
  if s.core.epoch = 0 || s.core.st = .off then s
  else if !s.core.depValid || !(s.dist s.core.deputy).live then s.enterFault stOk
  else
    let old := s.core.registry
    let s1 := if forwards (s.dist old).st && (s.dist old).live then s.proxy old else s.modDist old (fun x => { x with live := false })
    let s2 := s1.takeover old
    (if s2.core.st = .boot then s2.enterFault stOk else s2).wardensLeft

/-- REGISTRY_HEARTBEAT: a VC4 flit to the deputy, which counts its heartbeats as they arrive (R37, R266). -/
def execRegistryHeartbeat (s : State) : Out :=
  .next (if s.core.epoch = 0 || !(s.dist s.core.registry).live then s
    else s.sendMgmt s.core.registry s.core.deputy .registryBeat)

/-- REGISTRY_TAKEOVER: after three missed heartbeats, or at once where the registry's district `reported` a bollard on its warden or a
trip (R37). -/
def execRegistryTakeover (reported : Bool) (s : State) : Out :=
  .next (if reported || s.core.hbMissed ≥ 3 then s.registryLost else s)

/-- DEPUTY_SNAPSHOT_DONE. -/
def execDeputySnapshotDone (s : State) : Out :=
  .next (if s.core.snapshot then { s with core := { s.core with depValid := true, snapshot := false } } else s)

/-- DEPUTY_LOST: the registry names a new deputy and commits through the stacks meanwhile (R552). -/
def execDeputyLost (s : State) : Out :=
  .next (if s.core.epoch = 0 then s
    else
      let old := s.core.deputy
      let s1 := (s.nameDeputy (s.liveWardens.filter (fun d => d ≠ s.core.registry && d ≠ old))).checkpoint
      s1.event { code := 41, severity := 1, d := old })

/-- DEPUTY_ACK: a step's record, or its commit record, is held by the deputy (R35, R406). -/
def execDeputyAck (record : Nat) (s : State) : Out :=
  .next (if !s.core.depValid then s
    else { s with serve := { s.serve with steps := s.serve.steps.map (fun (st : Step) =>
      { st with
        logAcked := st.logAcked || (st.record == record && st.rows.length ≥ st.need)
        commitAcked := st.commitAcked || st.commitRec == some record }) } })

/-! ### Wardens (R26, R34, R550 to R552) -/

/-- WARDEN_COMMAND: the checks a warden, or its proxy, makes on a command before it acts on it; the reply to the registry is a VC4 flit
(R266, R293). -/
def execWardenCommand (d : DistId) (source : CmdSource) (epoch : BitVec 32) (s : State) : Out :=
  .next (
    let x := s.dist d.val
    if !x.live && x.proxyBy = 63 then s
    else match source with
      | .other => s.setDist d.val { x with badSource := satAdd 32 x.badSource 1 }
      | .takeover => s
      | .registry =>
        if epoch.toNat < x.epochSeen then s.setDist d.val { x with staleEpoch := satAdd 32 x.staleEpoch 1 }
        else (s.setDist d.val { x with epochSeen := epoch.toNat }).sendMgmt d.val s.core.registry (.reply d.val))

/-- WARDEN_HEARTBEAT: a VC4 flit to the warden's watcher, which counts its heartbeats as they arrive (R550, R266). -/
def execWardenHeartbeat (d : DistId) (s : State) : Out :=
  .next (if !(s.dist d.val).live then s
    else match (s.watchers d.val).head? with
      | some e => s.sendMgmt d.val e (.beat d.val)
      | none => s)

/-- A warden declared lost. -/
def State.wardenLost (s : State) (d : Nat) : State :=
  if !(s.dist d).live then s
  else if s.core.epoch ≠ 0 && d = s.core.registry then s.registryLost
  else
    let s1 := s.proxy d
    let s2 := { s1 with recov := { s1.recov with wardensLost := satAdd 16 s1.recov.wardensLost 1 } }
    let s3 := s2.event { code := 39, severity := 1, d := d }
    (if s3.core.st = .boot then s3.enterFault stOk else s3).wardensLeft

/-- WARDEN_LOST: after three missed heartbeats, or at once where the core failed, the watcher proxies the warden's district; the
registry's own is the takeover of R37. -/
def execWardenLost (d : DistId) (coreFailed : Bool) (s : State) : Out :=
  .next (if coreFailed || (s.dist d.val).hbMissed ≥ 3 then s.wardenLost d.val else s)

/-! ### A load that loses parcels (R363) -/

/-- A logical parcel under load given the nearest spare; the load fails where none is left. -/
def State.relocate (s : State) (lots : List LotEnt) (lp : Nat) (p : Pid) : State :=
  if s.load.ended.isSome then s
  else
    let used := (s.net.place.map (fun x => x.2.d.val)).eraseDups
    let ds := ((List.range 16).flatMap (fun k => (List.range 60).filter (fun e => distSteps p.d.val e == k))).filter (fun e =>
      e ≠ p.d.val || s.live e)
    let cand := (ds.filter (fun e => used.contains e || (s.dist e).st == .spare)).flatMap (fun e =>
      (districtPids e).filter s.isSpare)
    let need := (lots.filter (fun (e : LotEnt) => e.lp == lp)).length
    match cand.find? (fun q => s.live q.d.val && need ≤ (s.goodLots q).length) with
    | none => s.loadFail stNoSpare
    | some q =>
      let s1 := (s.activate q.d.val).modParcel q (fun ps => ps.powered (s.dist q.d.val).mode)
      { s1 with
        net := { s1.net with place := Sparse.put s1.net.place lp q }
        load := { s1.load with
          phase := 4
          jobs := s1.load.jobs.filter (fun (j : LotJob) => j.lp ≠ lp) ++ s1.jobsFor lots lp q } }

/-- The parcels of a load that meet a condition placed anew and programmed there. -/
def State.relocateLoad (s : State) (gone : Pid → Bool) : State :=
  if (s.load.phase ≠ 4 && s.load.phase ≠ 5) || s.load.kind ≠ 0 || s.load.ended.isSome then s
  else match s.load.deed with
    | none => s
    | some d =>
      let lots := ((d.segs.find? (fun e => e.kind == 1 && e.target == s.load.ordinal)).map (fun e =>
        lotEnts (s.kindBytes e.addr 5))).getD []
      (s.net.place.filter (fun x => gone x.2)).foldl (fun (t : State) x => t.relocate lots x.1 x.2) s

/-! ### BOLLARD (R29, R363, R541) -/

/-- A parcel fenced, its traverses stopped, its work in a load placed anew. A parcel that is fenced already stays so. -/
def State.fenceParcel (s : State) (p : Pid) (event : Nat) : State :=
  if (s.parcel p).health.bollard then s
  else
    let s1 := (s.bollard p event).stopTraverses (fun (t : Trav) =>
      (t.scope == 0 || t.scope == 1) && t.d == p.d.val && t.parcel == p.p.val) stRevoked
    s1.relocateLoad (fun q => q == p)

/-- BOLLARD. -/
def execBollard (p : Pid) (event : BitVec 16) (s : State) : Out := .next (s.fenceParcel p event.toNat)

/-! ### A district trip (R480, R541, R544) -/

/-- A district trips: power, traverses, load and wardens. A trip of the registry's own district is also its loss (R37, R562); before the
end of boot step 5 a district that loses its feeder stays DARK (R597). -/
def State.tripAll (s : State) (d cause code : Nat) : State :=
  if (s.dist d).st = .tripped then s.event { code := code, status := cause, severity := 1, d := d }
  else if (s.dist d).st = .dark && (s.dist d).switchOn.isNone then s
  else if s.core.st = .boot && s.boot.step ≤ 5 then (s.losePower d false).modDist d (fun x => { x with st := .dark })
  else
    let mine := s.core.epoch ≠ 0 && d = s.core.registry
    let s1 := (s.trip d cause code).stopTraverses (fun (t : Trav) => t.scope != 3 && t.d == d) cause
    let s2 := s1.relocateLoad (fun q => q.d.val == d)
    let s3 := if mine then s2.registryLost else s2
    s3.wardensLeft

end Sys2Proof.Machine
end

