-- ==== Sys2Proof/Machine/Warden.lean ====
section
/-!
DEFINITION. What wardens and the registry write into a parcel and a district: the rows STOP, RESUME, WARDEN_SET_RATION,
SET_VOLTAGE, LOT_MAP_WRITE, LOT_MAP_ARM, LOT_MAP_BAD_CLEAR, LOT_REMAP_WRITE, CP_CFG_WRITE, DME_EXC_CLEAR, SWP_EXC_CLEAR,
SUSPECT_CLEAR, PARAM_WRITE, CLASS_WRITE, KV_CFG_WRITE, STACK_WINDOW_WRITE, DETOUR_TABLE_WRITE and EASE_WRITE (01 R28, R30; 02 R74;
03 R107; 04 R135; 06 R202, R203; 09 R300, R301; 10 R330; 11 R352; 12 R374; 15 R457, R465, R484, R485; 22 R612).
-/
namespace Sys2Proof.Machine

/-- Bits `hi` to `lo` of a word. -/
def bits (v : Word) (hi lo : Nat) : Nat := v.toNat / 2 ^ lo % 2 ^ (hi + 1 - lo)

/-- A refused register write put into the fault log. -/
def State.refusedWrite (s : State) (p : Pid) : State := s.malformed p.d.val p.p.val

/-! ### Sweeper and regulator -/

/-- STOP: no further instruction issues; queued ones complete. -/
def execStop (p : Pid) (s : State) : Out :=
  .next (s.modParcel p (fun ps => { ps with swp := { ps.swp with stopped := true } }))

/-- RESUME: issue continues from the next instruction. -/
def execResume (p : Pid) (s : State) : Out :=
  .next (s.modParcel p (fun ps => { ps with swp := { ps.swp with stopped := false, halted := false } }))

/-- RATION written; a value above 320 is refused. -/
def State.writeRation (s : State) (p : Pid) (r : Nat) : State :=
  if r > 320 then s.refusedWrite p else s.modParcel p (fun ps => { ps with meter := { ps.meter with ration := r } })

/-- WARDEN_SET_RATION: the meter applies it at its next window boundary. -/
def execWardenSetRation (p : Pid) (v : Word) (s : State) : Out := .next (s.writeRation p (bits v 8 0))

/-- SET_VOLTAGE: the setpoint of a regulator; codes run from 0 to 60 (R456). -/
def execSetVoltage (p : Pid) (code : BitVec 6) (s : State) : Out :=
  .next (if code.toNat > 60 then s
    else s.modParcel p (fun ps => { ps with reg := { ps.reg with vset := code.toNat } }))

/-! ### Lot map (R352) -/

/-- LOT_MAP_WRITE: eight staged entries; their reserved bits 6:5 stay 0. -/
def execLotMapWrite (p : Pid) (hi : Bool) (v : Word) (s : State) : Out :=
  .next (s.modParcel p (fun ps =>
    { ps with mapStaged := (List.range 8).foldl (fun (m : Sparse (BitVec 8)) k =>
      Sparse.put m ((if hi then 8 else 0) + k) (BitVec.ofNat 8 (bits v (8 * k + 7) (8 * k)) &&& 0x9F)) ps.mapStaged }))

/-- LOT_MAP_ARM. -/
def execLotMapArm (p : Pid) (arm : Bool) (s : State) : Out := .next (s.modParcel p (fun ps => { ps with mapArm := arm }))

/-- LOT_MAP_BAD_CLEAR. -/
def execLotMapBadClear (p : Pid) (s : State) : Out := .next (s.modParcel p (fun ps => { ps with mapBad := false }))

/-! ### Lot registers (R74, R107) -/

/-- A remap register without its reserved bits. -/
def remapMask (v : Word) : Word := v &&& 0x87FF87FF87FF87FF

/-- Whether a remap table is one that R74 admits: no two valid entries with one target, and no entry, valid or not, that names a
target beyond the last. -/
def remapOk (t : Sparse Word) (limit : Nat) : Bool :=
  let ts := (List.range 16).filterMap (remapEntry t)
  (List.range 16).all (fun e => (Sparse.get 0 t (e / 4)).toNat / 2 ^ (16 * (e % 4)) % 2048 ≤ limit) && ts.length == ts.eraseDups.length

/-- LOT_REMAP_WRITE. -/
def execLotRemapWrite (p : Pid) (l : LotId) (col : Bool) (n : Fin 4) (v : Word) (s : State) : Out :=
  .next (
    let ps := s.parcel p
    let x := ps.lot l.val
    let t := Sparse.put (if col then x.colRemap else x.rowRemap) n.val (remapMask v)
    if ps.mapped l.val || !remapOk t (if col then 1039 else 1023) then s.refusedWrite p
    else s.setParcel p (ps.setLot l.val (if col then { x with colRemap := t } else { x with rowRemap := t })))

/-- LOT.CP_CFG as a write leaves it, field by field. -/
def CpCfg.write (c : CpCfg) (v : Word) (mapped : Bool) : CpCfg :=
  let o := bits v 44 32
  { outliers := if o > 4096 || (mapped && o ≠ c.outliers) then c.outliers else o
    auditLog2 := bits v 28 24
    flagLimit := bits v 23 16
    driftMode := if bits v 9 8 = 3 then c.driftMode else bits v 9 8
    checkEn := v.getLsbD 7
    thresh := if bits v 5 0 = 0 then c.thresh else bits v 5 0 }

/-- Whether a write of LOT.CP_CFG has a field refused. -/
def CpCfg.refuses (c : CpCfg) (v : Word) (mapped : Bool) : Bool :=
  bits v 44 32 > 4096 || (mapped && bits v 44 32 ≠ c.outliers) || bits v 9 8 == 3 || bits v 5 0 == 0

/-- CP_CFG_WRITE. -/
def execCpCfgWrite (p : Pid) (l : LotId) (v : Word) (s : State) : Out :=
  .next (
    let ps := s.parcel p
    let x := ps.lot l.val
    let s1 := s.setParcel p (ps.setLot l.val { x with cp := x.cp.write v (ps.mapped l.val) })
    if x.cp.refuses v (ps.mapped l.val) then s1.refusedWrite p else s1)

/-! ### Bits cleared by writing 1 -/

/-- DME_EXC_CLEAR. -/
def execDmeExcClear (p : Pid) (s : State) : Out :=
  .next (s.modParcel p (fun ps => { ps with dme := { ps.dme with exc := false } }))

/-- SWP_EXC_CLEAR. -/
def execSwpExcClear (p : Pid) (s : State) : Out :=
  .next (s.modParcel p (fun ps => { ps with swp := { ps.swp with exc := false } }))

/-- SUSPECT_CLEAR. -/
def execSuspectClear (d : DistId) (bits : BitVec 16) (s : State) : Out :=
  .next (s.modDist d.val (fun x => { x with suspect := x.suspect &&& ~~~ bits }))

/-! ### Registers written at load (R203, R330, R374, R612) -/

/-- Whether the registry may write a parcel's load registers: its sweeper is held in reset at a load or a bring-in. -/
def State.atLoad (s : State) (p : Pid) : Bool :=
  (s.parcel p).swp.inReset && (s.load.phase ≠ 0 || s.model.loaded)

/-- The bits of PARAM register `i` that hold fields (R203). -/
def paramMask (i : Nat) : Word :=
  match i with
  | 0 => 0x3FFFFFFF003FFFFF
  | 4 => 0x0000FFFFFFFFFFFF
  | 5 => 0xFFFFFFFF00000FFF
  | _ => 0xFFFFFFFFFFFFFFFF

/-- PARAM_WRITE. -/
def execParamWrite (p : Pid) (i : Fin 16) (v : Word) (s : State) : Out :=
  .next (if !s.atLoad p then s.refusedWrite p
    else s.modParcel p (fun ps => { ps with swp := { ps.swp with param := Sparse.put ps.swp.param i.val (v &&& paramMask i.val) } }))

/-- CLASS_WRITE: classes 4n to 4n + 3. -/
def execClassWrite (p : Pid) (n : Fin 4) (v : Word) (s : State) : Out :=
  .next (if !s.atLoad p then s.refusedWrite p
    else s.modParcel p (fun ps => { ps with cls := (List.range 4).foldl (fun (m : Sparse Nat) j =>
      Sparse.put m (4 * n.val + j) (bits v (16 * j + 15) (16 * j))) ps.cls }))

/-- KV_CFG_WRITE. -/
def execKvCfgWrite (p : Pid) (v : Word) (s : State) : Out :=
  .next (if !s.atLoad p then s
    else s.modParcel p (fun ps => { ps with kv := { ps.kv with cfg := v &&& 0xFFF0FFFFFFFFFFFF } }))

/-- A stack window with one of its registers written. -/
def Window.write (w : Window) (r : Nat) (v : Word) : Window :=
  match r with
  | 0 => { w with
      r := v.getLsbD 63
      w := v.getLsbD 62
      key := bits v 61 57
      share := bits v 56 48
      base := bits v 40 0 }
  | 1 => { w with length := bits v 40 0 }
  | _ => { w with segLen := bits v 48 20, first := bits v 19 0 }

/-- STACK_WINDOW_WRITE. -/
def execStackWindowWrite (p : Pid) (w : Fin 16) (r : Fin 3) (v : Word) (s : State) : Out :=
  .next (s.modParcel p (fun ps =>
    { ps with win := Sparse.put ps.win w.val ((Sparse.get {} ps.win w.val).write r.val v) }))

/-! ### District and engine -/

/-- DETOUR_TABLE_WRITE: bits 15:0 of an entry are reserved (R271); routes have changed, so the trees are due (R287). -/
def execDetourTableWrite (d : DistId) (i : Fin 102) (v : Word) (s : State) : Out :=
  let s1 := s.modDist d.val (fun x =>
    { x with detour := Sparse.put x.detour i.val (BitVec.ofNat 32 (bits v 31 0) &&& 0xFFFF0000) })
  .next { s1 with net := { s1.net with treesDue := true } }

/-- EASE_WRITE: eight easements. -/
def execEaseWrite (hi : Bool) (v : Word) (s : State) : Out :=
  .next { s with net := { s.net with ease := (List.range 8).foldl (fun (m : Sparse Nat) k =>
    Sparse.put m ((if hi then 8 else 0) + k) (bits v (8 * k + 7) (8 * k))) s.net.ease } }

end Sys2Proof.Machine
end

