-- ==== Sys2Proof/Machine/Meter.lean ====
section
/-!
DEFINITION. Meter, cap and power faults: the rows METER_WINDOW, CAP_LOOP, ENERGY_SAMPLE, FAST_LIMIT, UNDERVOLT, FEEDER_TRIP,
PHASE_LOST, REGULATOR_FAULT and PAD_CHECK (15 R453, R454, R458 to R469, R477, R480, R482; 18 R540).
-/
namespace Sys2Proof.Machine

/-! ### The meter window (R461 to R463, R477, R495, R502) -/

/-- S of a parcel (R461). -/
def State.factor (s : State) (p : Pid) : Nat := min s.pwr.sCap (min s.cool.sFlow (s.dist p.d.val).sTherm)

/-- RE: at most 2.60 A under the clamp of R458. -/
def ParcelState.effective (ps : ParcelState) (scale : Nat) : Nat :=
  let re := ps.meter.ration * scale / 256
  if ps.reg.clamp then min re 260 else re

/-- Whether the next window may run at ÷3: every condition of R477 on the window that ends, whose average is `avg` mA. -/
def ParcelState.surplusOk (ps : ParcelState) (avg : Nat) (notice : Bool) : Bool :=
  !ps.meter.stalledInWindow && !ps.meter.overInWindow && 16 * avg ≤ 150 * ps.meter.eff && ps.health.vmin3 + 4 ≤ 60 &&
  ps.reg.vset == ps.health.vmin3 + 4 && !notice

/-- The clock mode that applies from this boundary on: a district that is not ACTIVE, or in a transition, keeps its own (R476). -/
def DistState.modeAt (x : DistState) (now : Nat) : Nat := if x.st == .active && !x.busy then x.mode else now

/-- A window boundary of a parcel's meter. -/
def ParcelState.window (ps : ParcelState) (x : DistState) (scale avg : Nat) : ParcelState :=
  let mode := x.modeAt ps.meter.modeApplied
  let eff := ps.effective scale
  let surp := mode == 1 && ps.meter.modeApplied == 1 && ps.surplusOk avg x.notice
  let m := { ps.meter with
    scale := scale
    eff := eff
    windowI := avg
    guard := decide (10 * eff < avg)
    surp := surp
    surplusWin := if surp then satAdd 32 ps.meter.surplusWin 1 else ps.meter.surplusWin
    modeApplied := mode
    beats := (ps.meter.beats.map (fun k => k - 1)).filter (fun k => k ≠ 0)
    forecastWindows := ps.meter.forecastWindows - 1
    stalledInWindow := false }
  let ps1 := { ps with
    meter := m
    reg := { ps.reg with
      iout := avg
      vset := if ps.reg.on && mode ≠ ps.meter.modeApplied then ps.health.vCode mode else ps.reg.vset } }
  { ps1 with meter := { m with overInWindow := decide (150 * eff < 16 * ps1.heldMa) } }

/-- METER_WINDOW. -/
def execMeterWindow (p : Pid) (avg : Nat) (s : State) : Out :=
  .next (s.modParcel p (fun ps => ps.window (s.dist p.d.val) (s.factor p) (min avg 4095)))

/-! ### The cap (R466 to R469) -/

/-- A pass of the cap loop over measured power. -/
def State.capLoop (s : State) : State :=
  let ce := s.capEff
  let p := s.pwr.p1ms
  if ce < p then
    let sc := s.pwr.sCap - 16
    let s1 := { s with pwr := { s.pwr with
      sCap := sc
      capSteps := if s.pwr.sCap = 0 then s.pwr.capSteps else satAdd 16 s.pwr.capSteps 1 } }
    if sc = 0 && s.pwr.capUnmet.all (fun t => t + 100000000 ≤ s.time.ns) then
      ({ s1 with pwr := { s1.pwr with capUnmet := some s.time.ns } }).event { code := 4, severity := 1 }
    else s1
  else
    { s with pwr := { s.pwr with
      capUnmet := none
      sCap := if 100 * p < 97 * ce then min 256 (s.pwr.sCap + 4) else s.pwr.sCap } }

/-- CAP_LOOP: the tile's measurements, and the loop on them. -/
def execCapLoop (p1ms pmax vin iin : Nat) (s : State) : Out :=
  .next ({ s with pwr := { s.pwr with p1ms := p1ms, pmax := pmax, vin := vin, iin := iin } }).capLoop

/-- ENERGY_SAMPLE. -/
def execEnergySample (vin iin : Nat) (s : State) : Out :=
  .next { s with pwr := { s.pwr with vin := vin, iin := iin, energy := s.pwr.energy + vin * iin } }

/-- FAST_LIMIT: above 520 A. -/
def execFastLimit (iin : Nat) (s : State) : Out :=
  .next (
    let s1 := { s with pwr := { s.pwr with iin := iin } }
    if iin ≤ 5200 then s1
    else ({ s1 with pwr := { s1.pwr with sCap := min s1.pwr.sCap 128, fastLimit := satAdd 16 s1.pwr.fastLimit 1 } }).event
      { code := 3 })

/-- UNDERVOLT: between 38 V and 40 V the module runs on, its current held through cap_eff. -/
def execUndervolt (vin : Nat) (s : State) : Out :=
  .next (
    let s1 := { s with pwr := { s.pwr with vin := vin } }
    if s.core.st ≠ .off && 3800 ≤ vin && vin < 4000 then s1.event { code := 2, detail := leBytes vin 4 } else s1)

/-! ### Power faults -/

/-- FEEDER_TRIP. -/
def execFeederTrip (d : DistId) (s : State) : Out := .next (s.tripAll d.val stFeeder 7)

/-- Phases in service. -/
def Regulator.phases (r : Regulator) : Nat := ((List.range 5).filter (fun i => r.phOk.getLsbD i)).length

/-- A phase removed: with four left nothing else changes, with three the ration is clamped and the parcel fenced (R458);
a ramp continues (R483). -/
def State.phaseLost (s : State) (p : Pid) (k : Fin 5) : State :=
  let r := (s.parcel p).reg
  if !(r.on || r.ramp) || !r.phOk.getLsbD k.val then s
  else
    let r1 := { r with phOk := r.phOk &&& ~~~ (BitVec.ofNat 5 (2 ^ k.val)) }
    let few := decide (r1.phases < 4)
    let s1 := s.modParcel p (fun ps => { ps with reg := { r1 with clamp := r.clamp || few } })
    let s2 := { s1 with pwr := { s1.pwr with phaseLost := satAdd 16 s1.pwr.phaseLost 1 } }
    let s3 := s2.event { code := 5, d := p.d.val, parcel := p.p.val, detail := leBytes k.val 1 }
    if few then s3.fenceParcel p 5 else s3

/-- PHASE_LOST. -/
def execPhaseLost (p : Pid) (phase : Fin 5) (s : State) : Out := .next (s.phaseLost p phase)

/-- A parcel whose regulator is off: its router runs on, on the district supply (R262). -/
def ParcelState.regulatorOff (ps : ParcelState) (atLimit : Bool) : ParcelState :=
  { ps.unpowered false with
    rtr := ps.rtr
    reg := { ilim := atLimit, ctrlFail := !atLimit } }

/-- REGULATOR_FAULT: the parcel is fenced and its regulator off, once (R459, R483). -/
def execRegulatorFault (p : Pid) (atLimit : Bool) (s : State) : Out :=
  .next (if !(s.parcel p).reg.on then s
    else (s.fenceParcel p 34).modParcel p (fun ps => ps.regulatorOff atLimit))

/-! ### Pads (R482) -/

/-- Pad group `g` after a sample of its excess drop in mV: consecutive samples beyond 25 mV, and whether it is suspect. -/
def padSample (count : Nat) (e : Int) : Nat × Bool :=
  let c := if e > 25 then min 8 (count + 1) else 0
  (c, decide (c ≥ 8) || decide (e > 100))

/-- A district's pads after a sample, and the groups newly suspect. -/
def DistState.pads (x : DistState) (excess : List Int) : DistState × List Nat :=
  let r := (excess.take 16).zipIdx.map (fun e => (e.2, padSample (Sparse.get 0 x.padCounts e.2) e.1))
  let new := (r.filter (fun e => e.2.2 && !x.suspect.getLsbD e.1)).map Prod.fst
  ({ x with
    padCounts := r.foldl (fun (m : Sparse Nat) e => Sparse.put m e.1 e.2.1) x.padCounts
    suspect := new.foldl (fun (b : BitVec 16) g => b ||| BitVec.ofNat 16 (2 ^ g)) x.suspect
    worst := min 65535 ((excess.take 16).foldl (fun (a : Nat) e => max a e.toNat) 0) }, new)

/-- PAD_CHECK; the checks are off while no copy of the district's record is valid (R540). -/
def execPadCheck (d : DistId) (excess : List Int) (s : State) : Out :=
  .next (
    let c := Sparse.get ({ a := {}, b := {} } : Copies DistRec) s.nv.calDist d.val
    if !forwards (s.dist d.val).st || (!c.aOk && !c.bOk) then s
    else
      let r := (s.dist d.val).pads excess
      r.2.foldl (fun (t : State) g => t.event { code := 6, d := d.val, detail := leBytes g 1 }) (s.setDist d.val r.1))

end Sys2Proof.Machine
end

