-- ==== Sys2Proof/Machine/District.lean ====
section
/-!
DEFINITION. District power states: the rows DISTRICT_SET_STATE, SWITCH_ON_TEST, SWITCH_ON_TIMEOUT, RESERVE_RELEASE,
SWITCH_ON_COMPLETE, DISTRICT_TRANSITION_END, SET_CLOCK_MODE, SET_RATION, SET_CAP, NODE_LOCK, MESH_LOCK_FAIL and NODE_FAIL (15 R455,
R465, R466, R470 to R479; 16 R498 to R500; 18 R538, R540; 19 R551).
-/
namespace Sys2Proof.Machine

/-! ### Operands (R617) -/

/-- Whether a district operand names an unfused district, or all with 0xFF. -/
def State.districtOperand (s : State) (d : Nat) (all_ : Bool) : Bool :=
  (d < 60 && !s.nv.fused.getLsbD d) || (all_ && d == 0xFF)

/-- The districts that an operand names. -/
def State.districtsOf (s : State) (d : Nat) : List Nat :=
  if d = 0xFF then (List.range 60).filter (fun k => !s.nv.fused.getLsbD k) else [d]

/-- The states in which the budget commands are legal (R387). -/
def afterBoot : List EngSt := [.standby, .loaded, .serving, .draining, .fault]

/-! ### Calibration at power-up (R537 to R540) -/

/-- A lot with the fields of its record. -/
def LotState.fromRecord (x : LotState) (r : LotRec) : LotState :=
  { x with rowRemap := r.rowRemap, colRemap := r.colRemap, failedLast := r.failedLast, adc := r.adc }

/-- A parcel with the fields of its record; without one the codes are 60 and no lot has a remap entry. -/
def ParcelState.fromRecord (ps : ParcelState) (r : ParcelRec) : ParcelState :=
  let lots := r.lots.foldl (fun (m : Sparse LotState) e => Sparse.put m e.1 ((Sparse.get {} m e.1).fromRecord e.2)) ps.lots
  { ps with
    lots := lots
    health := { ps.health with
      vmin3 := min 60 r.v3
      vmin4 := min 60 r.v4
      vmin5 := min 60 r.v5
      vmin8 := min 60 r.v8
      retired := r.retired
      failsInRow := r.fails
      lotsRetired := r.lots.foldl (fun (b : BitVec 18) e => if e.2.retired then b ||| BitVec.ofNat 18 (2 ^ e.1) else b) 0 } }

/-- Whether a record holds a field out of range (R540). -/
def DistRec.outOfRange (r : DistRec) : Bool :=
  r.parcels.any (fun e => e.2.v3 > 60 || e.2.v4 > 60 || e.2.v5 > 60 || e.2.v8 > 60)

/-- The district's calibration record loaded (R540). -/
def State.loadCal (s : State) (d : Nat) : State :=
  let c := Sparse.get ({ a := {}, b := {} } : Copies DistRec) s.nv.calDist d
  let bad := (if c.aOk then 0 else 1) + (if c.bOk then 0 else 1)
  let r := (c.current).getD {}
  let s1 := (districtPids d).foldl (fun (t : State) p =>
    if (Sparse.get ({} : ParcelRec) r.parcels p.p.val) = {} && !t.parcels.any (fun x => x.1 == p.key) then t
    else t.modParcel p (fun ps => ps.fromRecord (Sparse.get {} r.parcels p.p.val))) s
  let s2 := s1.setWires d r.wires
  let s3 := if bad = 0 then s2
    else ({ s2 with cal := { s2.cal with calBad := satAdd 8 s2.cal.calBad bad } }).event { code := 26, d := d }
  if r.outOfRange then s3.event { code := 27, d := d } else s3

/-! ### Power-up (R470, R479, R499, R505) -/

/-- The ports of a district's own edge routers toward its neighbours, DEAD where they are holes (R275), and the coupling inputs of its node,
masked where no node is live (R498). -/
def State.senseDead (s : State) (d : Nat) : State :=
  (distNbrs d).foldl (fun (t : State) q =>
    (List.range 12).foldl (fun (u : State) k =>
      u.modRtr (pidOf (144 * d + edgeParcel q.1 k)) (fun x =>
        { x with dead := BitVec.ofNat 4 (natBit x.dead.toNat (newsBit q.1) (!s.live q.2)) }))
      (t.modDist d (fun x => { x with mask := natBit x.mask (newsBit q.1) (!s.live q.2) }))) s

/-- A district domain up: its warden runs, its node is locked and aligned, its sensors are judged afresh, its own throttle factor
starts at 256 (R521). -/
def State.domainUp (s : State) (d : Nat) (st : PSt) : State :=
  let s1 := s.modDist d (fun x => { x with
    st := st
    cause := 0
    live := true
    epochSeen := s.core.epoch
    aligned := true
    nodeLock := true
    nodeFail := false
    hole := x.routerFault
    mask := 0
    sites := []
    sTherm := 256
    notice := false
    trip115 := 0 })
  let s2 := (s1.loadCal d).mapDist d (fun ps => { ps with health := { ps.health with tempFail := false } })
  ((s2.markDead d (s.dist d).routerFault).maskNode d false).senseDead d

/-- Parcels powered at a district's clock mode. -/
def State.powerParcels (s : State) (ps : List Pid) (mode : Nat) : State :=
  ps.foldl (fun (t : State) p => t.modParcel p (fun x => x.powered mode)) s

/-- A switch-on carried out: domain and parcels up, or PCLK ungated. -/
def State.switchDone (s : State) (d : Nat) (target : PSt) : State :=
  let x := s.dist d
  if !x.st.domainOff then s.modDist d (fun y => { y with st := target })
  else ((s.domainUp d target).powerParcels (s.toPower d) x.mode).recomputeHoles

/-! ### Legality and work (R471, R472, R474) -/

/-- The transitions of R471. -/
def transitionOk (a b : PSt) : Bool :=
  match a, b with
  | .dark, .active => true
  | .dark, .idle => true
  | .dark, .spare => true
  | .active, .idle => true
  | .active, .retain => true
  | .active, .dark => true
  | .active, .spare => true
  | .idle, .active => true
  | .idle, .retain => true
  | .idle, .dark => true
  | .idle, .spare => true
  | .retain, .active => true
  | .retain, .idle => true
  | .retain, .dark => true
  | .retain, .spare => true
  | .tripped, .dark => true
  | .spare, .active => true
  | .spare, .idle => true
  | .spare, .retain => true
  | .spare, .dark => true
  | _, _ => false

/-- The state that a code names. -/
def pstOf (c : Nat) : Option PSt :=
  match c with
  | 0 => some .dark
  | 1 => some .active
  | 2 => some .idle
  | 3 => some .retain
  | 5 => some .spare
  | _ => none

/-- Whether a transition is a switch-on, tested against headroom (R478). -/
def switchesOn (a b : PSt) : Bool :=
  (a.domainOff && (b == .active || b == .idle || b == .spare)) || ((a == .idle || a == .spare) && b == .active)

/-- Whether a target removes power from the district domain. -/
def PSt.takesPower (b : PSt) : Bool := b == .dark || b == .retain

/-- Whether a district keeps its work in a target state (R472). -/
def State.keepsWork (s : State) (target : PSt) : Bool := target == .active || (target == .idle && s.core.st == .loaded)

/-- The work of a district moved: to a SPARE district by programming it there, failing that to covers that run it streamed; none
where it cannot move (R472). The district is marked busy before. -/
def State.moveWork (s : State) (d : Nat) : Option State :=
  if !s.model.loaded then some (s.relocateLoad (fun q => q.d.val == d))
  else
    let work := s.stranded d
    let tries := ((List.range 60).filter (fun e => e ≠ d && (s.dist e).st == .spare && !(s.dist e).busy)).filter (fun e =>
      (s.startRestore d e).recov.restoring.length > s.recov.restoring.length)
    match tries.head? with
    | some e => some (s.startRestore d e)
    | none =>
      let covers := s.chooseSpares ((s.spareOrder d).filter (fun p => p.d.val ≠ d)) work.length []
      if covers.length < work.length || !s.bringInOk covers (work.map Prod.snd) then none
      else
        let t := s.coverWork d work covers
        some (if t.core.st = .loaded && t.serve.steps.isEmpty then t.boundary else t)

/-- The roles of a district whose power goes handed over (R474); none where they cannot be. -/
def State.handOver (s : State) (d : Nat) : Option State :=
  let others := s.liveWardens.filter (fun e => e ≠ d)
  if others.length < 2 then none
  else if d = s.core.registry then
    if s.core.depValid && (s.dist s.core.deputy).live then some (s.takeover d) else none
  else if d = s.core.deputy then some ((s.nameDeputy (others.filter (fun e => e ≠ s.core.registry))).checkpoint)
  else some s

/-- A transition begun. -/
def State.beginTransition (s : State) (d : Nat) (target : PSt) (t : ReplyTo) : State :=
  s.modDist d (fun x => { x with busy := true, target := target, replyTo := some t, granted := false, switchOn := none })

/-- DISTRICT_SET_STATE on a district that can make the transition. -/
def State.setDistrict (s : State) (d : Nat) (target : PSt) (t : ReplyTo) : CmdOut :=
  let x := s.dist d
  if switchesOn x.st target then
    if (x.st.domainOff && x.lockBarred) || !budgetOk (s.loadOf (if x.st.domainOff then s.toPower d else s.poweredPids d) x.mode) then
      .say s stBusyPower
    else .later ((s.startSwitch d target (some t)).modDist d (fun y => { y with granted := false }))
  else
    match (if target.takesPower then s.handOver d else some s) with
    | none => .say s stBusyPower
    | some s1 =>
      let s2 := s1.beginTransition d target t
      if !s2.holdsWork d || s2.keepsWork target then .later s2
      else match s2.moveWork d with
        | none => .say s stNoSpare
        | some s3 => .later s3

/-- DISTRICT_SET_STATE. -/
def execDistrictSetState (m : MgmtHdr) (district target : BitVec 8) (s : State) : Out :=
  let c := cmdFor (.districtSetState m district target)
  .next (s.hostCmd c (fun t =>
    match pstOf target.toNat with
    | none => .malformed
    | some b =>
      let d := district.toNat
      if !t.districtOperand d false then .malformed
      else if !t.inState [.standby, .loaded, .serving, .draining] && !(t.inState [.fault] && b == .dark) then .illegal 0xFF
      else if (t.dist d).busy then .say t stBusyPower
      else if (t.dist d).st = b then .ok t
      else if !transitionOk (t.dist d).st b then .illegal (t.dist d).st.code
      else t.setDistrict d b (s.replyAddr c)))

/-! ### Switching on (R478, R479) -/

/-- A switch-on whose feeder does not reach 1.70 V: TRIPPED, and the command returns FEEDER_TRIP. -/
def State.probeFail (s : State) (d : Nat) : State :=
  let s1 := (s.modDist d (fun x => { x with
    st := .tripped
    cause := stFeeder
    trips := satAdd 8 x.trips 1 })).endTransition d stFeeder
  s1.event { code := 7, status := stFeeder, severity := 1, d := d }

/-- SWITCH_ON_TEST: the headroom test of a switch-on; once it passes P_on is reserved, from DARK the feeder is
probed, and the regulators are to ramp. -/
def execSwitchOnTest (d : DistId) (probeOk : Bool) (s : State) : Out :=
  .next (match (s.dist d.val).switchOn with
    | none => s
    | some w =>
      let mw := s.switchLoad d.val
      if w.probed || !s.headroomOk mw then s
      else
        let s1 := { s with pwr := { s.pwr with reserves := s.pwr.reserves ++ [Reserve.mk d.val mw] } }
        if (s.dist d.val).st = .dark && !probeOk then s1.probeFail d.val
        else
          let s2 := s1.modDist d.val (fun x => { x with switchOn := some { w with probed := true } })
          if (s.dist d.val).st.domainOff then (s.toPower d.val).foldl (fun (t : State) p => t.modParcel p ParcelState.ramping) s2
          else s2)

/-- SWITCH_ON_TIMEOUT: no test passed within 5 ms of engine time; a move that the registry makes under R473 has no limit. -/
def execSwitchOnTimeout (d : DistId) (s : State) : Out :=
  .next (
    let x := s.dist d.val
    if x.switchOn.all (fun w => w.probed || decide (s.time.ns < w.since + 5000000)) || x.replyTo.isNone then s
    else ({ s with pwr := { s.pwr with busyPower := satAdd 16 s.pwr.busyPower 1 } }).endTransition d.val stBusyPower)

/-- RESERVE_RELEASE: 1 ms after the switch-on. -/
def execReserveRelease (d : DistId) (s : State) : Out :=
  .next (if (s.dist d.val).switchOn.isSome then s
    else { s with pwr := { s.pwr with reserves := s.pwr.reserves.filter (fun (r : Reserve) => r.d ≠ d.val) } })

/-- SWITCH_ON_COMPLETE. -/
def execSwitchOnComplete (d : DistId) (s : State) : Out :=
  .next (match (s.dist d.val).switchOn with
    | none => s
    | some w => if w.probed then (s.switchDone d.val w.target).endTransition d.val stOk else s)

/-! ### Transitions without a switch-on (R471) -/

/-- A district with a router fault is recorded as retired once it is DARK (R558). -/
def State.retireFaulty (s : State) (d : Nat) : State :=
  if !(s.dist d).routerFault then s
  else
    let c := s.nv.calEng
    let s1 := s.modDist d (fun x => { x with retired := true })
    { s1 with nv := { s1.nv with calEng := c.write ((c.current).getD 0 ||| BitVec.ofNat 60 (2 ^ d)) } }

/-- The power of a district domain taken away on command: nodes masked, tables installed, then power. Flits that are still inside are lost,
and the uncommitted steps replayed (R275, R276). -/
def State.domainDown (s : State) (d : Nat) (st : PSt) : State :=
  let s1 := (s.stopTraverses (fun (t : Trav) => t.scope != 3 && t.d == d) stRevoked)
  let s2 := s1.modDist d (fun x => { x with st := st, cause := 0, hole := false })
  let s3 := ((s2.markDead d true).maskNode d true).recomputeHoles
  let s4 := (if s3.net.flits.any (fun (f : Flit) => f.district == some d) then s3.spoil else s3).losePower d (st == .retain)
  if st = .dark then (s4.retireFaulty d).endProxy d else s4

/-- DISTRICT_TRANSITION_END: the power change of a commanded transition, once no work stands in its way. -/
def execDistrictTransitionEnd (d : DistId) (s : State) : Out :=
  .next (
    let x := s.dist d.val
    if !x.busy || x.switchOn.isSome || x.replyTo.isNone then s
    else if s.model.loaded && (s.holdsWork d.val || !(s.stranded d.val).isEmpty) && !s.keepsWork x.target then s
    else
      let s1 := if x.target.takesPower then s.domainDown d.val x.target
        else s.modDist d.val (fun y => { y with st := x.target })
      s1.endTransition d.val stOk)

/-! ### Clock mode, ration, cap -/

/-- SET_CLOCK_MODE: kept by a district that is not ACTIVE; meters take it at a window boundary (R476, R495). -/
def execSetClockMode (m : MgmtHdr) (district mode : BitVec 8) (s : State) : Out :=
  .next (s.hostCmd (cmdFor (.setClockMode m district mode)) (fun t =>
    checked (t.districtOperand district.toNat true && mode.toNat ≤ 3) (t.inState afterBoot) (fun u =>
      let ds := u.districtsOf district.toNat
      if !ds.all (fun d => budgetOk (u.loadOf (u.poweredPids d) mode.toNat)) then .say u stBusyPower
      else .ok (ds.foldl (fun (v : State) d => v.modDist d (fun x => { x with mode := mode.toNat })) u)) t))

/-- The parcels that SET_RATION names. -/
def rationPids (ds : List Nat) (parcel : Nat) : List Pid :=
  ds.flatMap (fun d => if parcel = 0xFFFF then districtPids d else [pidOf (144 * d + parcel)])

/-- SET_RATION. -/
def execSetRation (m : MgmtHdr) (district : BitVec 8) (parcel ration : BitVec 16) (s : State) : Out :=
  .next (s.hostCmd
    (cmdFor (.setRation m district parcel ration)) (fun t =>
    checked (t.districtOperand district.toNat true && (parcel.toNat < 144 || parcel == 0xFFFF) && ration.toNat ≤ 320)
      (t.inState afterBoot) (fun u =>
      let ds := u.districtsOf district.toNat
      let v := (rationPids ds parcel.toNat).foldl (fun (w : State) p => w.writeRation p ration.toNat) u
      if ds.all (fun d => budgetOk (v.loadOf (v.poweredPids d) (v.dist d).mode)) then .ok v else .say u stBusyPower) t))

/-- SET_CAP. -/
def execSetCap (m : MgmtHdr) (cap : BitVec 32) (s : State) : Out :=
  .next (s.hostCmd (cmdFor (.setCap m cap)) (fun t =>
    checked (1000 ≤ cap.toNat && cap.toNat ≤ (if t.core.air then 2400 else 20000)) (t.inState afterBoot)
      (fun u => .ok { u with pwr := { u.pwr with cap := cap.toNat } }) t))

/-! ### Nodes of the mesh (R499, R500) -/

/-- NODE_LOCK: a node that is being switched on is locked, unmasked and aligned. -/
def execNodeLock (d : DistId) (s : State) : Out :=
  .next (if (s.dist d.val).switchOn.isNone && !forwards (s.dist d.val).st then s
    else (s.modDist d.val (fun x => { x with nodeLock := true, aligned := true })).maskNode d.val false)

/-- MESH_LOCK_FAIL: a node does not lock; the district stays DARK, its command returns BUSY_POWER, and it cannot be powered until
the next power-on. -/
def execMeshLockFail (d : DistId) (s : State) : Out :=
  .next (match (s.dist d.val).switchOn with
    | none => s
    | some _ =>
      let s1 := (s.losePower d.val false).modDist d.val (fun x => { x with st := .dark, nodeFail := true, lockBarred := true })
      (s1.endTransition d.val stBusyPower).event { code := 10, severity := 1, d := d.val })

/-- NODE_FAIL: a node out of phase is masked and its feeder opened. -/
def execNodeFail (d : DistId) (s : State) : Out :=
  .next (
    let st := (s.dist d.val).st
    if !forwards st && (s.dist d.val).switchOn.isNone then s
    else
      let s1 := (s.modDist d.val (fun x => { x with nodeFail := true })).maskNode d.val true
      s1.tripAll d.val stFeeder 9)

end Sys2Proof.Machine
end

