-- ==== Sys2Proof/Machine/Bundle.lean ====
section
/-!
DEFINITION. Firmware bundles and the row FIRMWARE_UPDATE (20 R583 to R585).
-/
namespace Sys2Proof.Machine

/-! ### Slots (R583, R584) -/

/-- What a byte of module flash reads as when a slot is erased. DESIGN CHOICE (log 5). -/
def flashDflt (_ : Nat) : Byte := 0xFF

/-- Bytes of slot B or A. -/
def Nv.slotBytes (n : Nv) (b : Bool) (o k : Nat) : List Byte := Mem.read flashDflt (if b then n.slotB else n.slotA) o k

/-- Whether a slot still holds the bundle of manufacture. -/
def Nv.isFactory (n : Nv) (b : Bool) : Bool := if b then n.factoryB else n.factoryA

/-- The header of a slot's bundle. -/
def Nv.header (n : Nv) (b : Bool) : List Byte := if n.isFactory b then Config.factoryHeader else n.slotBytes b 0 256

/-- Its security version. DESIGN CHOICE (log 5): the bundle of manufacture has SVN 1 and FLOOR 0. -/
def Nv.svnOf (n : Nv) (b : Bool) : Nat := if n.isFactory b then 1 else entField (n.slotBytes b 0 256) 8 4

/-- Its FLOOR. -/
def Nv.floorOf (n : Nv) (b : Bool) : Nat := if n.isFactory b then 0 else entField (n.slotBytes b 0 256) 12 4

/-- The limit of a component (R583). -/
def compLimit (k : Nat) : Nat := match k with | 0 => 8 * 2 ^ 20 | 1 => 65536 | _ => 2 ^ 20

/-- OFFSET, LENGTH and digest of a component. -/
def compOf (h : List Byte) (k : Nat) : Nat × Nat × List Byte :=
  (entField h (24 + 32 * k) 4, entField h (28 + 32 * k) 4, (h.drop (32 + 32 * k)).take 24)

/-- Whether a header is laid out as R583 says. -/
def headerOk (h : List Byte) : Bool :=
  h.take 8 == [0x4C, 0x57, 0x33, 0x46, 0x57, 0x42, 0x4E, 0x31] &&
  1 ≤ entField h 8 4 && entField h 8 4 ≤ 64 && entField h 12 4 ≤ entField h 8 4 && entField h 20 4 ≤ 2048 &&
  (List.range 3).all (fun k => (compOf h k).2.1 ≤ compLimit k) && entZero h 120 72

/-- The sweeper firmware of a slot's bundle (R583). -/
def Nv.sweeperStore (n : Nv) (b : Bool) : List Byte :=
  let c := compOf (n.slotBytes b 0 256) 1
  if n.isFactory b then Config.factoryStore else n.slotBytes b c.1 c.2.1

/-- Signer, signature, security version and digests of a slot (R584). -/
def Nv.signed (n : Nv) (b : Bool) : Bool :=
  let h := n.slotBytes b 0 256
  (Config.signerKey (n.slotBytes b (entField h 16 4) (entField h 20 4))).any (fun k =>
    sm2Verify k (h.take 192) ((h.drop 192).take 64)) &&
  (List.range 3).all (fun k =>
    let c := compOf h k
    (sm3 (n.slotBytes b c.1 c.2.1)).take 24 == c.2.2)

/-- What a verification answers: OK, MALFORMED for a bad layout, SIGNATURE_BAD for any other failed check. -/
def Nv.verify (n : Nv) (b : Bool) : Nat :=
  if !n.isFactory b && !headerOk (n.slotBytes b 0 256) then stMalformed
  else if n.svnFuse ≤ n.svnOf b && (n.isFactory b || n.signed b) then stOk
  else stSignature

/-! ### FIRMWARE_UPDATE (R585, R617) -/

/-- Data written into a slot; its first chunk erases the bundle of manufacture. -/
def Nv.writeSlot (n : Nv) (b : Bool) (o : Nat) (bs : List Byte) : Nv :=
  if b then { n with slotB := Mem.write flashDflt n.slotB o bs, factoryB := n.factoryB && bs.isEmpty }
  else { n with slotA := Mem.write flashDflt n.slotA o bs, factoryA := n.factoryA && bs.isEmpty }

/-- FIRMWARE_UPDATE carried out on the slot that does not run. -/
def State.updateSlot (s : State) (o : Nat) (last : Bool) (bs : List Byte) : CmdOut :=
  let b := !s.sec.slotB
  let n := s.nv.writeSlot b o bs
  if !last then .ok { s with nv := n }
  else
    let st := n.verify b
    .say { s with nv := { n with pendingSlot := if st = stOk then some b else none } } st

/-- FIRMWARE_UPDATE. -/
def execFirmwareUpdate (m : MgmtHdr) (off : BitVec 32) (last : BitVec 8) (data : List Byte) (s : State) : Out :=
  .next (s.hostCmd
    (cmdFor (.firmwareUpdate m off last data)) (fun t =>
    checked (data.length ≤ 4096 && last.toNat ≤ 1) (t.inState [.standby, .fault])
      (fun u => u.updateSlot off.toNat (last == 1) data) t))

end Sys2Proof.Machine
end

