-- ==== Sys2Proof/Machine/Clock.lean ====
section
/-!
DEFINITION. The reference inputs of the clock mesh: the rows REF_INPUT_FAIL and REF_INPUT_GOOD (16 R488, R489, R492).
-/
namespace Sys2Proof.Machine

/-- The input in use: REF0 while it is good, REF1 otherwise, holdover (3) with neither. -/
def Clk.choice (c : Clk) : Nat := if c.ref0Ok then 0 else if c.ref1Ok then 1 else 3

/-- Whether the mesh has nodes to lock: from boot step 4 on. -/
def State.meshUp (s : State) : Bool := s.core.st ≠ .off && (s.core.st ≠ .boot || s.boot.step ≥ 4)

/-- The input chosen anew; a change counts, and the loss of both inputs raises REF_LOST. -/
def State.relock (s : State) : State :=
  let sel := s.clk.choice
  let s1 := { s with clk := { s.clk with
    sel := sel
    lock := s.meshUp && sel ≠ 3
    refSwitch := if sel = s.clk.sel then s.clk.refSwitch else satAdd 16 s.clk.refSwitch 1 } }
  if sel = 3 && s.clk.sel ≠ 3 then s1.event { code := 11 } else s1

/-- An input judged good or failed. -/
def Clk.judge (c : Clk) (ref1 good : Bool) : Clk :=
  if ref1 then { c with ref1Ok := good } else { c with ref0Ok := good }

/-- REF_INPUT_FAIL. -/
def execRefInputFail (ref1 : Bool) (s : State) : Out :=
  .next (if s.core.st = .off then s else ({ s with clk := s.clk.judge ref1 false }).relock)

/-- REF_INPUT_GOOD. -/
def execRefInputGood (ref1 : Bool) (s : State) : Out :=
  .next (if s.core.st = .off then s else ({ s with clk := s.clk.judge ref1 true }).relock)

end Sys2Proof.Machine
end

