-- ==== Sys2Proof/Machine/Boot.lean ====
section
/-!
DEFINITION. Power-on, boot and warm reset: the rows POWER_ON, INPUT_REMOVED, OVERVOLTAGE, REVERSED_POLARITY, STRAP_CHANGE,
BOOT_FLOW_ESTABLISHED, BOOT_FLOW_TIMEOUT, ELECTION_WINDOW_CLOSE, BOOT_STEP5_END, BOOT_COMPLETE, BOOT_STATUS, ENGINE_RESET and
ENGINE_SET_STATE (01 R8, R9, R32, R33; 13 R385 to R389; 14 R427; 15 R453; 16 R492, R496; 21 R592 to R604).
-/
namespace Sys2Proof.Machine

/-! ### What is kept (R592, R603) -/

/-- The parcels with nothing but their lot cells. -/
def keepCells (ps : Sparse ParcelState) : Sparse ParcelState :=
  (ps.filter (fun x => !x.2.lots.isEmpty)).map (fun x =>
    (x.1, { lots := x.2.lots.map (fun l => (l.1, l.2.unpowered)) }))

/-- The state without power: flash, fuses and lot cells, the strap pin, and the model's own fields. -/
def State.unpowered (s : State) : State :=
  { pending := s.pending
    free := s.free
    nv := s.nv
    parcels := keepCells s.parcels
    core := { strapPin := s.core.strapPin }
    out := s.out
    regRead := s.regRead }

/-- Invalid copies among the engine's and the ports' records (R540, R542). -/
def Nv.badCopies (n : Nv) : Nat :=
  let bad (a b : Bool) : Nat := (if a then 0 else 1) + (if b then 0 else 1)
  bad n.calEng.aOk n.calEng.bOk + (n.calPort.map (fun x => bad x.2.aOk x.2.bOk)).sum

/-- Districts recorded retired; none where no copy is valid. -/
def Nv.retiredDistricts (n : Nv) : BitVec 60 := (n.calEng.current).getD 0

/-- Whether the feeder of a district is enabled at boot. -/
def State.fitted (s : State) (d : Nat) : Bool := !s.nv.fused.getLsbD d && !s.nv.retiredDistricts.getLsbD d

/-! ### Power (R8, R9, R453, R571, R594, R599) -/

/-- POWER_ON: the strap is latched and the seal measured; a broken seal ends in FAULT. VIN counts 10 mV. -/
def execPowerOn (vin : Nat) (sealOk : Bool) (s : State) : Out :=
  .next (if s.core.st ≠ .off || vin ≤ 4000 then s
    else
      let air := s.core.strapPin
      let s1 := { s.unpowered with
        core := { st := .boot, air := air, strapPin := air }
        boot := { step := if air then 3 else 2 }
        pwr := { vin := vin }
        cal := { calBad := satAdd 8 0 s.nv.badCopies }
        sec := { lastCtr := s.nv.floor, tamper := !sealOk } }
      if sealOk then s1 else s1.enterFault stKey)

/-- All outputs stop. -/
def State.powerOff (s : State) : State := if s.core.st = .off then s else s.unpowered

/-- INPUT_REMOVED. -/
def execInputRemoved (s : State) : Out := .next s.powerOff

/-- OVERVOLTAGE. -/
def execOvervoltage (s : State) : Out := .next s.powerOff

/-- REVERSED_POLARITY: the input stage blocks it and nothing is powered. -/
def execReversedPolarity (s : State) : Out := .next s.powerOff

/-- STRAP_CHANGE. -/
def execStrapChange (air : Bool) (s : State) : Out :=
  .next (
    let s1 := { s with core := { s.core with strapPin := air } }
    if s.core.st = .off || s.core.strapPin = air then s1 else s1.event { code := 1, detail := [if air then 1 else 0] })

/-! ### Steps 2 to 4 (R300, R492, R540, R584, R594 to R597) -/

/-- The slot that boots: the pending one first, then the active one, then the other; whether it is not the first tried; none
where neither verifies. -/
def Nv.bootSlot (n : Nv) : Option (Bool × Bool) :=
  let first := n.pendingSlot.getD n.activeB
  if n.verify first = stOk then some (first, false)
  else if n.verify (!first) = stOk then some (!first, true)
  else none

/-- The bundle verified: which slot runs, and what the firmware stores hold (R171); a pending slot that did not verify loses its mark. -/
def State.bootBundle (s : State) : State :=
  match s.nv.bootSlot with
  | none => { s with nv := { s.nv with pendingSlot := none } }
  | some r => { s with
      boot := { s.boot with fallback := r.2, fwStore := s.nv.sweeperStore r.1 }
      sec := { s.sec with slotB := r.1, svn := s.nv.svnOf r.1 }
      nv := if r.2 then { s.nv with pendingSlot := none } else s.nv }

/-- The holes that a warden can know before election: the fused and the retired districts (R300). -/
def State.unfitted (s : State) : List Nat := (List.range 60).filter (fun e => !s.fitted e)

/-- A district domain up at boot; a warden that runs writes its own detour table from the holes known before election. -/
def State.bootDistrict (s : State) (announced bad : List Nat) (d : Nat) : State :=
  (s.domainUp d .spare).modDist d (fun x => { x with
    live := announced.contains d
    aligned := false
    detour := if bad.contains d then [] else detourTable (fullHoles s.unfitted) d })

/-- BOOT_FLOW_ESTABLISHED: steps 2 to 4. `probeFail` lists the feeders that fail their probe, `fwBad` the wardens that fail R584 on
both slots, `announced` those that announce before the window closes. -/
def execBootFlowEstablished (probeFail fwBad announced : List DistId) (s : State) : Out :=
  .next (if s.core.st ≠ .boot || (s.boot.step ≠ 2 && s.boot.step ≠ 3) then s
    else
      let fits := (List.range 60).filter s.fitted
      let up := fits.filter (fun d => !(probeFail.map Fin.val).contains d)
      let s1 := s.bootBundle
      let bad := if s.nv.bootSlot.isNone then up else up.filter (fun d => (fwBad.map Fin.val).contains d)
      let ann := up.filter (fun d => (announced.map Fin.val).contains d && !bad.contains d)
      let s2 := (List.range 60).foldl (fun (t : State) d => t.modDist d (fun x => { x with
        retired := s.nv.retiredDistricts.getLsbD d
        st := if up.contains d then .spare else .dark })) s1
      let s3 := up.foldl (fun (t : State) d => t.bootDistrict ann bad d) s2
      let s4 := { s3 with boot := { s3.boot with
        step := 4
        fwBad := bad
        announced := ann
        probeFail := fits.filter (fun d => (probeFail.map Fin.val).contains d) } }
      s4.relock)

/-- BOOT_FLOW_TIMEOUT: step 2 has not completed 60 s after t0 (R596). -/
def execBootFlowTimeout (s : State) : Out :=
  .next (if s.core.st = .boot && s.boot.step = 2 && decide (s.boot.t0 + 60000000000 ≤ s.time.ns) then s.enterFault stCoolant else s)

/-! ### Step 5 (R32 to R34, R39, R300, R597, R599) -/

/-- ELECTION_WINDOW_CLOSE: the roles, the first epoch, and what boot has found so far. -/
def execElectionWindowClose (s : State) : Out :=
  .next (if s.core.st ≠ .boot || s.boot.step ≠ 4 then s
    else match electRoles s.liveWardens with
      | none => s.enterFault (if s.boot.fwBad.isEmpty then stNoSpare else stSignature)
      | some r =>
        let s1 := { s with
          core := { s.core with registry := r.1, deputy := r.2, epoch := 1, depValid := false, snapshot := true, hbMissed := 0 }
          boot := { s.boot with step := 5 } }
        let full := fullHoles s.unfitted
        let s2 := s1.liveWardens.foldl (fun (t : State) d => t.modDist d (fun x => { x with epochSeen := 1 }))
          { s1 with net := { s1.net with holes := full, unreach := full.length - s.unfitted.length } }
        (s.boot.probeFail.foldl (fun (t : State) d =>
          t.event { code := 7, status := stFeeder, severity := 1, d := d }) s2).pickAnchor)

/-- The stored fabric configuration applied; a record whose CRC fails leaves every data port off (R427). -/
def State.applyFabric (s : State) : State :=
  match (if s.nv.fabricOk then s.nv.fabric else none) with
  | none => { s with fab := { s.fab with ok := false, engineId := 0x3FFF } }
  | some f => { s with fab := { s.fab with
      ok := true
      engineId := f.engineId
      encap := f.encap
      prio := f.prio
      domain := f.domain
      ipPrefix := f.ipPrefix
      qKey := f.qKey
      ip0 := f.ip0
      ip1 := f.ip1
      ports := f.modes.zipIdx.foldl (fun (m : Sparse Port) x =>
        Sparse.put m x.2 { (Sparse.get ({} : Port) m x.2) with mode := x.1 }) s.fab.ports } }

/-- A silent district: its feeder is opened. -/
def State.silence (s : State) (d : Nat) : State :=
  ((s.losePower d false).modDist d (fun x => { x with st := .dark })).event { code := 39, severity := 1, d := d }

/-- BOOT_STEP5_END: `late` lists the wardens that announced after the window closed. -/
def execBootStep5End (late : List DistId) (s : State) : Out :=
  .next (if s.core.st ≠ .boot || s.boot.step ≠ 5 then s
    else
      let late_ := (List.range 60).filter (fun d =>
        (late.map Fin.val).contains d && s.live d && !(s.dist d).live && !s.boot.fwBad.contains d)
      let s1 := late_.foldl (fun (t : State) d => t.modDist d (fun x => { x with live := true, epochSeen := t.core.epoch })) s
      let silent := (List.range 60).filter (fun d => s1.live d && !(s1.dist d).live && (s1.dist d).proxyBy = 63)
      let s2 := (silent.foldl (fun (t : State) d => (t.silence d)) s1).recomputeHoles
      let s3 := silent.foldl (fun (t : State) d => (t.markDead d true).maskNode d true) s2
      { s3 with boot := { s3.boot with step := 6 } }.applyFabric)

/-! ### Steps 6 to 8 (R371, R496, R523, R585, R594, R598) -/

/-- Stacks that fail their training (R371). -/
def State.bootStacks (s : State) (ks : List Nat) : State :=
  let new := ks.eraseDups.filter (fun k => !s.stk.lost.contains k)
  new.foldl (fun (t : State) k => t.event { code := 47, severity := 1, detail := leBytes k 1 })
    { s with stk := { s.stk with lost := s.stk.lost ++ new } }

/-- A parcel that fails its self-test. -/
def State.bootParcel (s : State) (p : Pid) : State := if s.live p.d.val then s.bollard p 34 else s

/-- A district whose benchmark cells disagree. -/
def State.bootBench (s : State) (d : Nat) : State :=
  if s.live d then (s.modDist d (fun x => { x with benchBad := true })).event { code := 24, d := d } else s

/-- The end of boot: parcels powered, deputy complete, sync edge, STANDBY; a pending bundle becomes active. -/
def State.toStandby (s : State) : State :=
  let s1 := ((List.range 60).filter (fun d => s.live d)).foldl (fun (t : State) d =>
    (t.powerParcels (t.toPower d) 0).modDist d (fun x => { x with aligned := true })) s
  { s1 with
    core := { s1.core with st := .standby, depValid := true, snapshot := false }
    clk := { s1.clk with sync := true, root := 0, window := 0, fclk := 0, frame := 0 }
    boot := { s1.boot with step := 8, toStandby := min 65535 ((s1.time.ns - s1.boot.t0) / 10000000) }
    nv := if s1.nv.pendingSlot = some s1.sec.slotB then
        { s1.nv with
          activeB := s1.sec.slotB
          pendingSlot := none
          svnFuse := max s1.nv.svnFuse (s1.nv.floorOf s1.sec.slotB) }
      else s1.nv }

/-- BOOT_COMPLETE: what steps 6 and 7 found. -/
def execBootComplete (parcelFail : List Pid) (benchBad : List DistId) (stacksFailed : List StackId) (s : State) : Out :=
  .next (if s.core.st ≠ .boot || s.boot.step ≠ 6 then s
    else
      let s1 := s.bootStacks (stacksFailed.map Fin.val)
      if s1.stk.lost.length ≥ 3 then s1.enterFault stNoSpare
      else
        let s2 := parcelFail.foldl (fun (t : State) p => t.bootParcel p) s1
        (benchBad.foldl (fun (t : State) d => t.bootBench d.val) s2).toStandby)

/-! ### BOOT_STATUS (R600) -/

/-- A list of districts as bits. -/
def distBits (ds : List Nat) : Nat := (ds.map (fun d => 2 ^ d)).sum

/-- The 64 bytes of a BOOT_STATUS message. -/
def State.bootStatusBytes (s : State) : List Byte :=
  let flag (b : Bool) (k : Nat) : Nat := if b then 2 ^ k else 0
  let b := [0x4C, 0x57, 0x33, 0x42, 0x4F, 0x4F, 0x54, 0x31] ++ leBytes s.nv.serial.toNat 8 ++
    leBytes ((s.time.ns - s.boot.t0) / 1000000) 8 ++ leBytes s.boot.step 1 ++ leBytes s.boot.cause 1 ++
    leBytes (flag s.core.air 0 + flag s.sec.tamper 1 + flag s.clk.lock 2) 1 ++ leBytes 0 1 ++
    leBytes (distBits s.boot.announced) 8 ++ leBytes (distBits s.boot.fwBad) 8 ++ leBytes 0 16
  b ++ leBytes (crc32c b) 4

/-- BOOT_STATUS: from both management ports, while no registry answers. -/
def execBootStatus (s : State) : Out :=
  .next (if s.core.st = .off || s.answers then s
    else (s.emit (.bootStatus 16 s.bootStatusBytes)).emit (.bootStatus 17 s.bootStatusBytes))

/-! ### Warm reset (R602, R603) -/

/-- A data port across a warm reset: links of an unchanged port block stay. -/
def Port.kept (x : Port) : Port := { x with paused := false, spilled := [], pauseSince := 0 }

/-- A warm reset: boot runs on from step 3. -/
def State.warmReset (s : State) : State :=
  let s1 := { s.unpowered with
    core := { st := .boot, air := s.core.air, strapPin := s.core.strapPin }
    boot := { step := 3, warm := true, warmResets := satAdd 16 s.boot.warmResets 1, t0 := s.time.ns }
    time := s.time
    clk := { ref0Ok := s.clk.ref0Ok, ref1Ok := s.clk.ref1Ok, sel := s.clk.sel }
    pwr := { vin := s.pwr.vin, iin := s.pwr.iin, energy := s.pwr.energy }
    cool := { s.cool with
      setpoint := 360
      dest := 0
      destPort := 0
      notices := 0
      thrSteps := 0
      disagree := 0
      sensFail := 0 }
    stk := {
      mem := s.stk.mem.filter (fun c => c.1 < 0x48000000)
      bad := s.stk.bad.filter (fun c => c.1 < 0x48000000)
      lostRecs := s.stk.lostRecs.filter (fun a => a < 0x48000000)
      lost := s.stk.lost
      routeLost := s.stk.routeLost }
    fab := { ports := s.fab.ports.map (fun x => (x.1, x.2.kept)) }
    recov := { count := s.recov.count }
    cal := { calBad := s.cal.calBad, flashFail := s.cal.flashFail }
    sec := s.sec
    tap := s.tap }
  if s.sec.tamper then s1.enterFault stKey else s1

/-- A command answered OK, then the warm reset. -/
def State.resetBy (s : State) (t : ReplyTo) (opcode : Nat) : CmdOut :=
  .later (((s.reply t opcode { status := stOk }).stopTraverses (fun _ => true) stRevoked).warmReset)

/-- ENGINE_RESET. -/
def execEngineReset (m : MgmtHdr) (s : State) : Out :=
  let c := cmdFor (.engineReset m)
  .next (s.hostCmd c (fun t => checked true (t.inState [.standby]) (fun u => u.resetBy (s.replyAddr c) 0x0013) t))

/-! ### ENGINE_SET_STATE (R385 to R387, R472) -/

/-- The engine state that a target names. -/
def targetOf (c : Nat) : Option EngSt :=
  match c with
  | 2 => some .standby
  | 3 => some .loaded
  | 4 => some .serving
  | _ => none

/-- Whether the cause of a FAULT persists: coolant still lost, or a district still TRIPPED with it. -/
def State.causePersists (s : State) : Bool :=
  (s.core.cause == stCoolant && s.cool.lost) ||
  ((s.core.cause == stFeeder || s.core.cause == stThermal) &&
    (List.range 60).any (fun d => (s.dist d).st == .tripped && (s.dist d).cause == s.core.cause))

/-- Whether some district that holds work is IDLE. -/
def State.idleWork (s : State) : Bool := (List.range 60).any (fun d => s.holdsWork d && (s.dist d).st == .idle)

/-- ENGINE_SET_STATE with a legal target. -/
def State.setEngine (s : State) (target : EngSt) (drain : Nat) (t : ReplyTo) : CmdOut :=
  let ms := if drain = 0 then none else some drain
  let cur := s.core.st
  if cur = .draining && target = .loaded then .ok ({ s with core := { s.core with drainMs := ms, drainFrom := s.time.ns } })
  else if cur = target then .ok s
  else if cur = .loaded && target = .serving then
    if s.idleWork then .say s stBusyPower else .ok { s with core := { s.core with st := .serving } }
  else if cur = .serving && target = .loaded then
    .ok ({ s with core := { s.core with st := .draining, drainMs := ms, drainFrom := s.time.ns } }).drainEnd
  else if cur = .draining && target = .serving then .ok { s with core := { s.core with st := .serving, drainMs := none } }
  else if cur = .fault && target = .standby then
    if s.causePersists then .say s s.core.cause else s.resetBy t 0x0001
  else .illegal 0xFF

/-- ENGINE_SET_STATE. -/
def execEngineSetState (m : MgmtHdr) (target : BitVec 8) (drainMs : BitVec 32) (s : State) : Out :=
  let c := cmdFor (.engineSetState m target drainMs)
  .next (s.hostCmd c (fun t =>
    match targetOf target.toNat with
    | none => .malformed
    | some g => if drainMs.toNat > 60000 then .malformed else t.setEngine g drainMs.toNat (s.replyAddr c)))

end Sys2Proof.Machine
end

