-- ==== Sys2Proof/Machine/Plat.lean ====
section
/-!
DEFINITION. The 64-bit words of Plat instructions, packed and unpacked (06 R178 to R190; 07 R204 to R233). A sweeper's command names its
instruction's fields; these are the words that an image holds for them.
-/
namespace Sys2Proof.Machine

/-! ### Operand bits 53:0 -/

/-- Bits 53:0 of the ALU layout (R180). -/
def aluBits (o : AluOps) : BitVec 54 :=
  o.rd ++ o.rs1 ++ o.rs2 ++ BitVec.ofBool o.immf ++ o.rsv ++ o.imm

/-- The fields of these bits. -/
def aluOf (b : BitVec 54) : AluOps :=
  { rd := b.extractLsb' 49 5
    rs1 := b.extractLsb' 44 5
    rs2 := b.extractLsb' 39 5
    immf := b.getLsbD 38
    rsv := b.extractLsb' 32 6
    imm := b.extractLsb' 0 32 }

/-- Bits 53:0 of the IMM layout (R180). -/
def immBits (o : ImmOps) : BitVec 54 :=
  o.rd ++ o.rsv ++ o.imm

/-- The fields of these bits. -/
def immOf (b : BitVec 54) : ImmOps :=
  { rd := b.extractLsb' 49 5
    rsv := b.extractLsb' 48 1
    imm := b.extractLsb' 0 48 }

/-- Bits 53:0 of the MEM layout (R180). -/
def memBits (o : MemOps) : BitVec 54 :=
  o.rd ++ o.rb ++ o.rsv ++ o.off

/-- The fields of these bits. -/
def memOf (b : BitVec 54) : MemOps :=
  { rd := b.extractLsb' 49 5
    rb := b.extractLsb' 44 5
    rsv := b.extractLsb' 32 12
    off := b.extractLsb' 0 32 }

/-- Bits 53:0 of the BR layout (R180). -/
def brBits (o : BrOps) : BitVec 54 :=
  o.rd ++ o.rs1 ++ o.rs2 ++ o.rsv ++ o.off

/-- The fields of these bits. -/
def brOf (b : BitVec 54) : BrOps :=
  { rd := b.extractLsb' 49 5
    rs1 := b.extractLsb' 44 5
    rs2 := b.extractLsb' 39 5
    rsv := b.extractLsb' 32 7
    off := b.extractLsb' 0 32 }

/-- Bits 53:0 of the VEC layout (R185). -/
def vectorBits (o : VecOps) : BitVec 54 :=
  o.vd ++ o.vs1 ++ o.vs2 ++ o.et ++ BitVec.ofBool o.sc ++ o.rs ++ o.rd ++ o.rsv

/-- The fields of these bits. -/
def vectorOf (b : BitVec 54) : VecOps :=
  { vd := b.extractLsb' 51 3
    vs1 := b.extractLsb' 48 3
    vs2 := b.extractLsb' 45 3
    et := b.extractLsb' 41 4
    sc := b.getLsbD 40
    rs := b.extractLsb' 35 5
    rd := b.extractLsb' 30 5
    rsv := b.extractLsb' 0 30 }

/-- Bits 53:0 of the CVT layout (R187). -/
def cvtBits (o : CvtOps) : BitVec 54 :=
  o.tag ++ o.sf ++ o.df ++ BitVec.ofBool o.sr ++ o.width ++ o.ra ++ o.rb ++ o.rn ++ o.rk ++ o.rbs ++ o.rsv

/-- The fields of these bits. -/
def cvtOf (b : BitVec 54) : CvtOps :=
  { tag := b.extractLsb' 50 4
    sf := b.extractLsb' 46 4
    df := b.extractLsb' 42 4
    sr := b.getLsbD 41
    width := b.extractLsb' 37 4
    ra := b.extractLsb' 32 5
    rb := b.extractLsb' 27 5
    rn := b.extractLsb' 22 5
    rk := b.extractLsb' 17 5
    rbs := b.extractLsb' 12 5
    rsv := b.extractLsb' 0 12 }

/-- Bits 53:0 of the SMP layout (R189). -/
def smpBits (o : SmpOps) : BitVec 54 :=
  o.rd ++ o.rs1 ++ o.rs2 ++ o.rs3 ++ o.km1 ++ o.rsv

/-- The fields of these bits. -/
def smpOf (b : BitVec 54) : SmpOps :=
  { rd := b.extractLsb' 49 5
    rs1 := b.extractLsb' 44 5
    rs2 := b.extractLsb' 39 5
    rs3 := b.extractLsb' 34 5
    km1 := b.extractLsb' 26 8
    rsv := b.extractLsb' 0 26 }

/-- Bits 53:0 of the SYS layout (R190). -/
def sysBits (o : SysOps) : BitVec 54 :=
  o.rd ++ o.rs ++ o.csr ++ o.rsv

/-- The fields of these bits. -/
def sysOf (b : BitVec 54) : SysOps :=
  { rd := b.extractLsb' 49 5
    rs := b.extractLsb' 44 5
    csr := b.extractLsb' 32 12
    rsv := b.extractLsb' 0 32 }

/-- Bits 53:0 of the LMV layout (R208). -/
def lmvBits (o : LmvOps) : BitVec 54 :=
  o.tag ++ o.tk ++ o.lot ++ o.nm1 ++ o.ofmt ++ o.rs ++ o.rd ++ o.rsv

/-- The fields of these bits. -/
def lmvOf (b : BitVec 54) : LmvOps :=
  { tag := b.extractLsb' 50 4
    tk := b.extractLsb' 46 4
    lot := b.extractLsb' 42 4
    nm1 := b.extractLsb' 39 3
    ofmt := b.extractLsb' 37 2
    rs := b.extractLsb' 32 5
    rd := b.extractLsb' 27 5
    rsv := b.extractLsb' 0 27 }

/-- Bits 53:0 of the DMM layout (R212). -/
def dmmBits (o : DmmOps) : BitVec 54 :=
  o.tag ++ o.tk ++ o.tf ++ o.xf ++ o.nm1 ++ o.km1 ++ BitVec.ofBool o.chain ++ BitVec.ofBool o.write ++
    BitVec.ofBool o.wf ++ BitVec.ofBool o.raw ++ o.rt ++ o.rx ++ o.rd ++ o.rsv

/-- The fields of these bits. -/
def dmmOf (b : BitVec 54) : DmmOps :=
  { tag := b.extractLsb' 50 4
    tk := b.extractLsb' 46 4
    tf := b.extractLsb' 42 4
    xf := b.extractLsb' 38 4
    nm1 := b.extractLsb' 34 4
    km1 := b.extractLsb' 30 4
    chain := b.getLsbD 29
    write := b.getLsbD 28
    wf := b.getLsbD 27
    raw := b.getLsbD 26
    rt := b.extractLsb' 21 5
    rx := b.extractLsb' 16 5
    rd := b.extractLsb' 11 5
    rsv := b.extractLsb' 0 11 }

/-- Bits 53:0 of the DMG layout (R214). -/
def dmgBits (o : DmgOps) : BitVec 54 :=
  o.tag ++ o.tk ++ BitVec.ofBool o.enter ++ BitVec.ofBool o.exit ++ o.rb ++ o.rsv ++ o.g2

/-- The fields of these bits. -/
def dmgOf (b : BitVec 54) : DmgOps :=
  { tag := b.extractLsb' 50 4
    tk := b.extractLsb' 46 4
    enter := b.getLsbD 45
    exit := b.getLsbD 44
    rb := b.extractLsb' 39 5
    rsv := b.extractLsb' 32 7
    g2 := b.extractLsb' 0 32 }

/-- Bits 53:0 of the ATS layout (R215). -/
def atsBits (o : AtsOps) : BitVec 54 :=
  o.tag ++ o.tk ++ o.gm1 ++ o.nvm1 ++ o.rq ++ o.rp ++ o.rd ++ o.rsv

/-- The fields of these bits. -/
def atsOf (b : BitVec 54) : AtsOps :=
  { tag := b.extractLsb' 50 4
    tk := b.extractLsb' 46 4
    gm1 := b.extractLsb' 42 4
    nvm1 := b.extractLsb' 34 8
    rq := b.extractLsb' 29 5
    rp := b.extractLsb' 24 5
    rd := b.extractLsb' 19 5
    rsv := b.extractLsb' 0 19 }

/-- Bits 53:0 of the ATV layout (R215). -/
def atvBits (o : AtvOps) : BitVec 54 :=
  o.tag ++ o.tk ++ o.rsvHi ++ o.gm1 ++ o.nvm1 ++ o.rw ++ o.rp ++ o.rd ++ o.pf ++ BitVec.ofBool o.chain ++
    BitVec.ofBool o.write ++ o.rsv

/-- The fields of these bits. -/
def atvOf (b : BitVec 54) : AtvOps :=
  { tag := b.extractLsb' 50 4
    tk := b.extractLsb' 46 4
    rsvHi := b.extractLsb' 45 1
    gm1 := b.extractLsb' 42 3
    nvm1 := b.extractLsb' 34 8
    rw := b.extractLsb' 29 5
    rp := b.extractLsb' 24 5
    rd := b.extractLsb' 19 5
    pf := b.extractLsb' 15 4
    chain := b.getLsbD 14
    write := b.getLsbD 13
    rsv := b.extractLsb' 0 13 }

/-- Bits 53:0 of the ATX layout (R215). -/
def atxBits (o : AtxOps) : BitVec 54 :=
  o.tag ++ o.tk ++ o.gm1 ++ o.rsvHi ++ o.rq ++ o.rs ++ o.rd ++ o.rn ++ o.rsv

/-- The fields of these bits. -/
def atxOf (b : BitVec 54) : AtxOps :=
  { tag := b.extractLsb' 50 4
    tk := b.extractLsb' 46 4
    gm1 := b.extractLsb' 42 4
    rsvHi := b.extractLsb' 34 8
    rq := b.extractLsb' 29 5
    rs := b.extractLsb' 24 5
    rd := b.extractLsb' 19 5
    rn := b.extractLsb' 14 5
    rsv := b.extractLsb' 0 14 }

/-- Bits 53:0 of the KAP layout (R215). -/
def kapBits (o : KapOps) : BitVec 54 :=
  o.tag ++ o.tk ++ BitVec.ofBool o.kind ++ o.rsvHi ++ o.rs ++ o.ra ++ o.rsv

/-- The fields of these bits. -/
def kapOf (b : BitVec 54) : KapOps :=
  { tag := b.extractLsb' 50 4
    tk := b.extractLsb' 46 4
    kind := b.getLsbD 45
    rsvHi := b.extractLsb' 34 11
    rs := b.extractLsb' 29 5
    ra := b.extractLsb' 24 5
    rsv := b.extractLsb' 0 24 }

/-- Bits 53:0 of the QUE layout (R225). -/
def queBits (o : QueOps) : BitVec 54 :=
  o.tag ++ o.tk ++ BitVec.ofBool o.raw ++ o.cm1 ++ o.ra ++ o.rs ++ o.rsv

/-- The fields of these bits. -/
def queOf (b : BitVec 54) : QueOps :=
  { tag := b.extractLsb' 50 4
    tk := b.extractLsb' 46 4
    raw := b.getLsbD 45
    cm1 := b.extractLsb' 33 12
    ra := b.extractLsb' 28 5
    rs := b.extractLsb' 23 5
    rsv := b.extractLsb' 0 23 }

/-- Bits 53:0 of the WAIT layout (R228). -/
def waitBits (o : WaitOps) : BitVec 54 :=
  o.tag ++ o.tk ++ o.mask ++ o.rsv

/-- The fields of these bits. -/
def waitOf (b : BitVec 54) : WaitOps :=
  { tag := b.extractLsb' 50 4
    tk := b.extractLsb' 46 4
    mask := b.extractLsb' 30 16
    rsv := b.extractLsb' 0 30 }

/-- Bits 53:0 of the SND layout (R229). -/
def sndBits (o : SndOps) : BitVec 54 :=
  o.tag ++ o.tk ++ BitVec.ofBool o.plan ++ BitVec.ofBool o.raw ++ o.cm1 ++ o.ch ++ o.rs ++ o.rt ++ o.rsv

/-- The fields of these bits. -/
def sndOf (b : BitVec 54) : SndOps :=
  { tag := b.extractLsb' 50 4
    tk := b.extractLsb' 46 4
    plan := b.getLsbD 45
    raw := b.getLsbD 44
    cm1 := b.extractLsb' 32 12
    ch := b.extractLsb' 26 6
    rs := b.extractLsb' 21 5
    rt := b.extractLsb' 16 5
    rsv := b.extractLsb' 0 16 }

/-- Bits 53:0 of the RCV layout (R229). -/
def rcvBits (o : RcvOps) : BitVec 54 :=
  o.tag ++ o.tk ++ o.rsvHi ++ BitVec.ofBool o.raw ++ o.cm1 ++ o.ch ++ o.rd ++ o.rt ++ o.rsv

/-- The fields of these bits. -/
def rcvOf (b : BitVec 54) : RcvOps :=
  { tag := b.extractLsb' 50 4
    tk := b.extractLsb' 46 4
    rsvHi := b.extractLsb' 45 1
    raw := b.getLsbD 44
    cm1 := b.extractLsb' 32 12
    ch := b.extractLsb' 26 6
    rd := b.extractLsb' 21 5
    rt := b.extractLsb' 16 5
    rsv := b.extractLsb' 0 16 }

/-- Bits 53:0 of the MCS layout (R229). -/
def mcsBits (o : McsOps) : BitVec 54 :=
  o.tag ++ o.tk ++ o.rsvHi ++ BitVec.ofBool o.raw ++ o.cm1 ++ o.ch ++ o.rs ++ o.tree ++ o.rsv

/-- The fields of these bits. -/
def mcsOf (b : BitVec 54) : McsOps :=
  { tag := b.extractLsb' 50 4
    tk := b.extractLsb' 46 4
    rsvHi := b.extractLsb' 45 1
    raw := b.getLsbD 44
    cm1 := b.extractLsb' 32 12
    ch := b.extractLsb' 26 6
    rs := b.extractLsb' 21 5
    tree := b.extractLsb' 13 8
    rsv := b.extractLsb' 0 13 }

/-- Bits 53:0 of the HINT layout (R233). -/
def hintBits (o : HintOps) : BitVec 54 :=
  o.rsvHi ++ o.draw ++ o.dur ++ o.rsv

/-- The fields of these bits. -/
def hintOf (b : BitVec 54) : HintOps :=
  { rsvHi := b.extractLsb' 46 8
    draw := b.extractLsb' 34 12
    dur := b.extractLsb' 18 16
    rsv := b.extractLsb' 0 18 }

/-! ### Words (R178, R179, R206) -/

/-- A word: CLASS, OP and operand bits. -/
def platWord (cls : BitVec 4) (op : BitVec 6) (b : BitVec 54) : BitVec 64 := cls ++ op ++ b

/-- The parcel and the word of a Plat instruction; the other rows of the table have none. -/
def platEncode : Instr → Option (Pid × BitVec 64)
  | .add p o => some (p, platWord 0 0 (aluBits o))
  | .sub p o => some (p, platWord 0 1 (aluBits o))
  | .and p o => some (p, platWord 0 2 (aluBits o))
  | .or p o => some (p, platWord 0 3 (aluBits o))
  | .xor p o => some (p, platWord 0 4 (aluBits o))
  | .sll p o => some (p, platWord 0 5 (aluBits o))
  | .srl p o => some (p, platWord 0 6 (aluBits o))
  | .sra p o => some (p, platWord 0 7 (aluBits o))
  | .slt p o => some (p, platWord 0 8 (aluBits o))
  | .sltu p o => some (p, platWord 0 9 (aluBits o))
  | .min p o => some (p, platWord 0 10 (aluBits o))
  | .max p o => some (p, platWord 0 11 (aluBits o))
  | .mul p o => some (p, platWord 0 12 (aluBits o))
  | .mulh p o => some (p, platWord 0 13 (aluBits o))
  | .div p o => some (p, platWord 0 14 (aluBits o))
  | .divu p o => some (p, platWord 0 15 (aluBits o))
  | .rem p o => some (p, platWord 0 16 (aluBits o))
  | .remu p o => some (p, platWord 0 17 (aluBits o))
  | .clz p o => some (p, platWord 0 18 (aluBits o))
  | .popc p o => some (p, platWord 0 19 (aluBits o))
  | .li p o => some (p, platWord 1 0 (immBits o))
  | .lhi p o => some (p, platWord 1 1 (immBits o))
  | .ld8s p o => some (p, platWord 2 0 (memBits o))
  | .ld8u p o => some (p, platWord 2 1 (memBits o))
  | .ld16s p o => some (p, platWord 2 2 (memBits o))
  | .ld16u p o => some (p, platWord 2 3 (memBits o))
  | .ld32s p o => some (p, platWord 2 4 (memBits o))
  | .ld32u p o => some (p, platWord 2 5 (memBits o))
  | .ld64 p o => some (p, platWord 2 6 (memBits o))
  | .st8 p o => some (p, platWord 2 8 (memBits o))
  | .st16 p o => some (p, platWord 2 9 (memBits o))
  | .st32 p o => some (p, platWord 2 10 (memBits o))
  | .st64 p o => some (p, platWord 2 11 (memBits o))
  | .vld p o => some (p, platWord 2 16 (memBits o))
  | .vst p o => some (p, platWord 2 17 (memBits o))
  | .beq p o => some (p, platWord 3 0 (brBits o))
  | .bne p o => some (p, platWord 3 1 (brBits o))
  | .blt p o => some (p, platWord 3 2 (brBits o))
  | .bge p o => some (p, platWord 3 3 (brBits o))
  | .bltu p o => some (p, platWord 3 4 (brBits o))
  | .bgeu p o => some (p, platWord 3 5 (brBits o))
  | .jal p o => some (p, platWord 3 8 (brBits o))
  | .jalr p o => some (p, platWord 3 9 (brBits o))
  | .vadd p o => some (p, platWord 4 0 (vectorBits o))
  | .vsub p o => some (p, platWord 4 1 (vectorBits o))
  | .vmul p o => some (p, platWord 4 2 (vectorBits o))
  | .vmin p o => some (p, platWord 4 3 (vectorBits o))
  | .vmax p o => some (p, platWord 4 4 (vectorBits o))
  | .vdiv p o => some (p, platWord 4 5 (vectorBits o))
  | .vfma p o => some (p, platWord 4 6 (vectorBits o))
  | .vexp p o => some (p, platWord 4 7 (vectorBits o))
  | .vsqrt p o => some (p, platWord 4 8 (vectorBits o))
  | .vrmax p o => some (p, platWord 4 9 (vectorBits o))
  | .vrsum p o => some (p, platWord 4 10 (vectorBits o))
  | .vmov p o => some (p, platWord 4 11 (vectorBits o))
  | .cvt p o => some (p, platWord 5 0 (cvtBits o))
  | .smax p o => some (p, platWord 6 0 (smpBits o))
  | .stopk p o => some (p, platWord 6 1 (smpBits o))
  | .scum p o => some (p, platWord 6 2 (smpBits o))
  | .sword p o => some (p, platWord 6 3 (smpBits o))
  | .spen p o => some (p, platWord 6 4 (smpBits o))
  | .nop p o => some (p, platWord 7 0 (sysBits o))
  | .csrr p o => some (p, platWord 7 1 (sysBits o))
  | .csrw p o => some (p, platWord 7 2 (sysBits o))
  | .evwait p o => some (p, platWord 7 3 (sysBits o))
  | .evpop p o => some (p, platWord 7 4 (sysBits o))
  | .evpost p o => some (p, platWord 7 5 (sysBits o))
  | .fence p o => some (p, platWord 7 6 (sysBits o))
  | .fret p o => some (p, platWord 7 8 (sysBits o))
  | .lmv p o => some (p, platWord 8 0 (lmvBits o))
  | .lmva p o => some (p, platWord 8 1 (lmvBits o))
  | .dmm p o => some (p, platWord 9 0 (dmmBits o))
  | .dmg p o => some (p, platWord 9 1 (dmgBits o))
  | .ats p o => some (p, platWord 10 0 (atsBits o))
  | .atv p o => some (p, platWord 10 1 (atvBits o))
  | .atx p o => some (p, platWord 10 2 (atxBits o))
  | .kap p o => some (p, platWord 10 3 (kapBits o))
  | .ldq p o => some (p, platWord 11 0 (queBits o))
  | .stq p o => some (p, platWord 11 1 (queBits o))
  | .waitq p o => some (p, platWord 11 2 (waitBits o))
  | .snd p o => some (p, platWord 12 0 (sndBits o))
  | .rcv p o => some (p, platWord 12 1 (rcvBits o))
  | .mcs p o => some (p, platWord 12 2 (mcsBits o))
  | .hint p o => some (p, platWord 13 0 (hintBits o))
  | _ => none

/-- The instruction of a word; none for a reserved CLASS or an OP that its class does not list, which raise ILLEGAL. -/
def platDecode (p : Pid) (w : BitVec 64) : Option Instr :=
  let b := w.extractLsb' 0 54
  match (w.extractLsb' 60 4).toNat, (w.extractLsb' 54 6).toNat with
  | 0, 0 => some (.add p (aluOf b))
  | 0, 1 => some (.sub p (aluOf b))
  | 0, 2 => some (.and p (aluOf b))
  | 0, 3 => some (.or p (aluOf b))
  | 0, 4 => some (.xor p (aluOf b))
  | 0, 5 => some (.sll p (aluOf b))
  | 0, 6 => some (.srl p (aluOf b))
  | 0, 7 => some (.sra p (aluOf b))
  | 0, 8 => some (.slt p (aluOf b))
  | 0, 9 => some (.sltu p (aluOf b))
  | 0, 10 => some (.min p (aluOf b))
  | 0, 11 => some (.max p (aluOf b))
  | 0, 12 => some (.mul p (aluOf b))
  | 0, 13 => some (.mulh p (aluOf b))
  | 0, 14 => some (.div p (aluOf b))
  | 0, 15 => some (.divu p (aluOf b))
  | 0, 16 => some (.rem p (aluOf b))
  | 0, 17 => some (.remu p (aluOf b))
  | 0, 18 => some (.clz p (aluOf b))
  | 0, 19 => some (.popc p (aluOf b))
  | 1, 0 => some (.li p (immOf b))
  | 1, 1 => some (.lhi p (immOf b))
  | 2, 0 => some (.ld8s p (memOf b))
  | 2, 1 => some (.ld8u p (memOf b))
  | 2, 2 => some (.ld16s p (memOf b))
  | 2, 3 => some (.ld16u p (memOf b))
  | 2, 4 => some (.ld32s p (memOf b))
  | 2, 5 => some (.ld32u p (memOf b))
  | 2, 6 => some (.ld64 p (memOf b))
  | 2, 8 => some (.st8 p (memOf b))
  | 2, 9 => some (.st16 p (memOf b))
  | 2, 10 => some (.st32 p (memOf b))
  | 2, 11 => some (.st64 p (memOf b))
  | 2, 16 => some (.vld p (memOf b))
  | 2, 17 => some (.vst p (memOf b))
  | 3, 0 => some (.beq p (brOf b))
  | 3, 1 => some (.bne p (brOf b))
  | 3, 2 => some (.blt p (brOf b))
  | 3, 3 => some (.bge p (brOf b))
  | 3, 4 => some (.bltu p (brOf b))
  | 3, 5 => some (.bgeu p (brOf b))
  | 3, 8 => some (.jal p (brOf b))
  | 3, 9 => some (.jalr p (brOf b))
  | 4, 0 => some (.vadd p (vectorOf b))
  | 4, 1 => some (.vsub p (vectorOf b))
  | 4, 2 => some (.vmul p (vectorOf b))
  | 4, 3 => some (.vmin p (vectorOf b))
  | 4, 4 => some (.vmax p (vectorOf b))
  | 4, 5 => some (.vdiv p (vectorOf b))
  | 4, 6 => some (.vfma p (vectorOf b))
  | 4, 7 => some (.vexp p (vectorOf b))
  | 4, 8 => some (.vsqrt p (vectorOf b))
  | 4, 9 => some (.vrmax p (vectorOf b))
  | 4, 10 => some (.vrsum p (vectorOf b))
  | 4, 11 => some (.vmov p (vectorOf b))
  | 5, 0 => some (.cvt p (cvtOf b))
  | 6, 0 => some (.smax p (smpOf b))
  | 6, 1 => some (.stopk p (smpOf b))
  | 6, 2 => some (.scum p (smpOf b))
  | 6, 3 => some (.sword p (smpOf b))
  | 6, 4 => some (.spen p (smpOf b))
  | 7, 0 => some (.nop p (sysOf b))
  | 7, 1 => some (.csrr p (sysOf b))
  | 7, 2 => some (.csrw p (sysOf b))
  | 7, 3 => some (.evwait p (sysOf b))
  | 7, 4 => some (.evpop p (sysOf b))
  | 7, 5 => some (.evpost p (sysOf b))
  | 7, 6 => some (.fence p (sysOf b))
  | 7, 8 => some (.fret p (sysOf b))
  | 8, 0 => some (.lmv p (lmvOf b))
  | 8, 1 => some (.lmva p (lmvOf b))
  | 9, 0 => some (.dmm p (dmmOf b))
  | 9, 1 => some (.dmg p (dmgOf b))
  | 10, 0 => some (.ats p (atsOf b))
  | 10, 1 => some (.atv p (atvOf b))
  | 10, 2 => some (.atx p (atxOf b))
  | 10, 3 => some (.kap p (kapOf b))
  | 11, 0 => some (.ldq p (queOf b))
  | 11, 1 => some (.stq p (queOf b))
  | 11, 2 => some (.waitq p (waitOf b))
  | 12, 0 => some (.snd p (sndOf b))
  | 12, 1 => some (.rcv p (rcvOf b))
  | 12, 2 => some (.mcs p (mcsOf b))
  | 13, 0 => some (.hint p (hintOf b))
  | _, _ => none

end Sys2Proof.Machine
end

