-- ==== Sys2Proof/Machine/Fetch.lean ====
section
/-!
DEFINITION. The word that a sweeper fetches at its PC (06 R171, R173, R178, R179).
-/
namespace Sys2Proof.Machine

/-- The word at the PC: from image code, or with FW = 1 from the firmware store, whose bytes are `store`. What the store holds beyond its
component's length is 0 (DESIGN CHOICE, log 127). -/
def ParcelState.fetchWord (ps : ParcelState) (store : List Byte) : BitVec 64 :=
  BitVec.ofNat 64 (leNat (if ps.swp.fw then (List.range 8).map (fun i => store.getD (ps.swp.fpc % 65536 + i) 0) else ps.read ps.swp.pc 8))

/-- Whether the sweeper of parcel `p`, free to issue, stands at a word with a reserved CLASS or an OP that its class does not list
(R179). -/
def ParcelState.unlisted (ps : ParcelState) (p : Pid) (store : List Byte) : Bool :=
  ps.ready && !ps.fetchBad && (platDecode p (ps.fetchWord store)).isNone

end Sys2Proof.Machine
end

