-- ==== Sys2Proof/Machine/MemOp.lean ====
section
/-!
DEFINITION. Sweeper loads, stores and branches (06 R172, R173, R183, R184).
-/
namespace Sys2Proof.Machine

/-- The address of a MEM instruction: g[RB] + OFF32 (R183). -/
def memAddr (ps : ParcelState) (o : MemOps) : Nat := (ps.gReg o.rb.toNat + o.off.signExtend 64).toNat

/-- The exception of a load of `n` bytes at `a`, aligned to `al` (R173): cause 2 ADDRESS. -/
def loadCheck (ps : ParcelState) (a n al : Nat) : Option Nat :=
  if a % al ≠ 0 || !loadOpen ps.swp.fw a n then some 2 else none

/-- The exception of a store of `n` bytes at `a` (R173): misaligned or outside SRAM ADDRESS; into image code CODE_WRITE;
outside the areas open to stores ADDRESS. DESIGN CHOICE (log 122): a misaligned store into image code raises ADDRESS; R173 gives no
order between the two. -/
def storeCheck (ps : ParcelState) (a n al : Nat) : Option Nat :=
  if a % al ≠ 0 || a + n > 0x600000 then some 2
  else if overlap a n 0x530000 0x20000 then some 3
  else if ps.storeOpen ps.swp.fw a n then none else some 2

/-- SRAM_UE: an imprecise exception of the instruction at `epc` (R198). -/
def ParcelState.sramUe (ps : ParcelState) (epc : Nat) : ParcelState := ps.raise 12 0 0 0 epc ps.swp.fw

/-- A scalar load of `n` bytes (R183); `sgn` is sign extension. A load of an uncorrectable word reads a free value and raises SRAM_UE
(R198; log 128). -/
def loadOp (n : Nat) (sgn : Bool) (p : Pid) (o : MemOps) (s : State) : Out :=
  s.issueAt p 0 (o.rsv ≠ 0) (fun ps =>
    let a := memAddr ps o
    match loadCheck ps a n n with
    | some c => .exc c
    | none =>
      let bs := ps.read a n
      let v := if sgn then BitVec.ofInt 64 (leInt bs) else BitVec.ofNat 64 (leNat bs)
      if ps.uncorrectable a n then .done (ParcelState.sramUe (ps.setG o.rd.toNat (Config.badWord a)) ps.pc) ps.next
      else .done (ps.setG o.rd.toNat v) ps.next)

/-- A scalar store of the low `n` bytes of g[RD] (R183). -/
def storeOp (n : Nat) (p : Pid) (o : MemOps) (s : State) : Out :=
  s.issueAt p 0 (o.rsv ≠ 0) (fun ps =>
    let a := memAddr ps o
    match storeCheck ps a n n with
    | some c => .exc c
    | none => .done (ps.write a (leBytes (ps.gReg o.rd.toNat).toNat n)) ps.next)

/-- LD8S. -/
def execLd8s (p : Pid) (o : MemOps) (s : State) : Out := loadOp 1 true p o s
/-- LD8U. -/
def execLd8u (p : Pid) (o : MemOps) (s : State) : Out := loadOp 1 false p o s
/-- LD16S. -/
def execLd16s (p : Pid) (o : MemOps) (s : State) : Out := loadOp 2 true p o s
/-- LD16U. -/
def execLd16u (p : Pid) (o : MemOps) (s : State) : Out := loadOp 2 false p o s
/-- LD32S. -/
def execLd32s (p : Pid) (o : MemOps) (s : State) : Out := loadOp 4 true p o s
/-- LD32U. -/
def execLd32u (p : Pid) (o : MemOps) (s : State) : Out := loadOp 4 false p o s
/-- LD64. -/
def execLd64 (p : Pid) (o : MemOps) (s : State) : Out := loadOp 8 false p o s
/-- ST8. -/
def execSt8 (p : Pid) (o : MemOps) (s : State) : Out := storeOp 1 p o s
/-- ST16. -/
def execSt16 (p : Pid) (o : MemOps) (s : State) : Out := storeOp 2 p o s
/-- ST32. -/
def execSt32 (p : Pid) (o : MemOps) (s : State) : Out := storeOp 4 p o s
/-- ST64. -/
def execSt64 (p : Pid) (o : MemOps) (s : State) : Out := storeOp 8 p o s

/-- The vector register of VLD and VST: bits 51:49, the low bits of RD (R183). -/
def memVec (o : MemOps) : Nat := o.rd.toNat % 8

/-- VLD: 1,024 bytes from SRAM to v[RD]; bits 53:52 must be 0 (R183). -/
def execVld (p : Pid) (o : MemOps) (s : State) : Out :=
  s.issueAt p 1 (o.rsv ≠ 0 || o.rd.toNat ≥ 8) (fun ps =>
    let a := memAddr ps o
    match loadCheck ps a 1024 8 with
    | some c => .exc c
    | none =>
      if ps.uncorrectable a 1024 then .done (ParcelState.sramUe (ps.setV (memVec o) (Config.badVector a)) ps.pc) ps.next
      else .done (ps.setV (memVec o) (BitVec.ofNat 8192 (leNat (ps.read a 1024)))) ps.next)

/-- VST: 1,024 bytes of v[RD] to SRAM (R183). -/
def execVst (p : Pid) (o : MemOps) (s : State) : Out :=
  s.issueAt p 1 (o.rsv ≠ 0 || o.rd.toNat ≥ 8) (fun ps =>
    let a := memAddr ps o
    match storeCheck ps a 1024 8 with
    | some c => .exc c
    | none => .done (ps.write a (leBytes (ps.vReg (memVec o)).toNat 1024)) ps.next)

/-! ### Branches (R184) -/

/-- PC + OFF32. -/
def brTarget (ps : ParcelState) (o : BrOps) : Nat := (BitVec.ofNat 64 ps.pc + o.off.signExtend 64).toNat

/-- A conditional branch on g[RS1] and g[RS2]; an OFF32 that is no multiple of 8 is ILLEGAL, taken or not (R179). -/
def branchOp (c : Word → Word → Bool) (p : Pid) (o : BrOps) (s : State) : Out :=
  s.issueAt p 0 (o.rsv ≠ 0 || o.off.toNat % 8 ≠ 0) (fun ps =>
    .done ps (if c (ps.gReg o.rs1.toNat) (ps.gReg o.rs2.toNat) then brTarget ps o else ps.next))

/-- BEQ. -/
def execBeq (p : Pid) (o : BrOps) (s : State) : Out := branchOp (fun a b => a == b) p o s
/-- BNE. -/
def execBne (p : Pid) (o : BrOps) (s : State) : Out := branchOp (fun a b => a != b) p o s
/-- BLT. -/
def execBlt (p : Pid) (o : BrOps) (s : State) : Out := branchOp (fun a b => a.slt b) p o s
/-- BGE. -/
def execBge (p : Pid) (o : BrOps) (s : State) : Out := branchOp (fun a b => !a.slt b) p o s
/-- BLTU. -/
def execBltu (p : Pid) (o : BrOps) (s : State) : Out := branchOp (fun a b => a.ult b) p o s
/-- BGEU. -/
def execBgeu (p : Pid) (o : BrOps) (s : State) : Out := branchOp (fun a b => !a.ult b) p o s

/-- JAL: g[RD] takes PC + 8; jump to PC + OFF32. -/
def execJal (p : Pid) (o : BrOps) (s : State) : Out :=
  s.issueAt p 0 (o.rsv ≠ 0 || o.off.toNat % 8 ≠ 0) (fun ps =>
    .done (ps.setG o.rd.toNat (BitVec.ofNat 64 ps.next)) (brTarget ps o))

/-- JALR: g[RD] takes PC + 8; jump to g[RS1] + OFF32 with bits 2:0 cleared. -/
def execJalr (p : Pid) (o : BrOps) (s : State) : Out :=
  s.issueAt p 0 (o.rsv ≠ 0) (fun ps =>
    .done (ps.setG o.rd.toNat (BitVec.ofNat 64 ps.next))
      ((ps.gReg o.rs1.toNat + o.off.signExtend 64) &&& 0xFFFFFFFFFFFFFFF8#64).toNat)

end Sys2Proof.Machine
end

