-- ==== Sys2Proof/Machine/Sys.lean ====
section
/-!
DEFINITION. System instructions and events (06 R190 to R193), WAITQ (07 R228) and HINT (07 R233).
-/
namespace Sys2Proof.Machine

/-- NOP. -/
def execNop (p : Pid) (o : SysOps) (s : State) : Out := s.issueAt p 0 (o.rsv ≠ 0) (fun ps => .done ps ps.next)

/-- The value of a CSR the sweeper may read, `time` being engine time in ns (R191). -/
def csrValue (ps : ParcelState) (time n : Nat) : Option Word :=
  if n < 16 then some (Sparse.get 0 ps.swp.param n)
  else if n = 0x10 then some (BitVec.ofNat 64 ps.swp.cycle)
  else if n = 0x11 then some (BitVec.ofNat 64 time)
  else if n = 0x12 then some ps.swp.step
  else if n = 0x13 then some (BitVec.ofNat 64 ps.swp.events.length)
  else if 0x14 ≤ n && n ≤ 0x17 then some (Sparse.get 0 ps.swp.scratch (n - 0x14))
  else if n = 0x18 then some (bit1 ps.swp.fw)
  else none
where
  /-- A truth value as a word. -/
  bit1 (b : Bool) : Word := if b then 1 else 0

/-- Whether a CSR number is one of the privileged ones (R31, R191). -/
def csrPrivileged (n : Nat) : Bool := 0x100 ≤ n && n ≤ 0x1FF

/-- CSRR: a privileged CSR raises PRIVILEGED, an unlisted number ILLEGAL (R191). -/
def execCsrr (p : Pid) (o : SysOps) (s : State) : Out :=
  s.issueAt p 0 (o.rsv ≠ 0) (fun ps =>
    if csrPrivileged o.csr.toNat then .exc 4
    else match csrValue ps s.time.ns o.csr.toNat with
      | some v => .done (ps.setG o.rd.toNat v) ps.next
      | none => .exc 1)

/-- CSRW: only SCRATCH0 to SCRATCH3 are writable; another readable CSR raises PRIVILEGED (R190, R191). -/
def execCsrw (p : Pid) (o : SysOps) (s : State) : Out :=
  s.issueAt p 0 (o.rsv ≠ 0) (fun ps =>
    let n := o.csr.toNat
    if 0x14 ≤ n && n ≤ 0x17 then
      .done { ps with swp := { ps.swp with scratch := Sparse.put ps.swp.scratch (n - 0x14) (ps.gReg o.rs.toNat) } } ps.next
    else if csrPrivileged n || (csrValue ps s.time.ns n).isSome then .exc 4 else .exc 1)

/-- EVWAIT. -/
def execEvwait (p : Pid) (o : SysOps) (s : State) : Out :=
  s.issueAt p 0 (o.rsv ≠ 0) (fun ps => ps.issueWait (.event o.rd.toNat))

/-- EVPOP: the oldest image event, or 0. A freed entry lets a waiting producer in (R193). -/
def execEvpop (p : Pid) (o : SysOps) (s : State) : Out :=
  s.issueAt p 0 (o.rsv ≠ 0) (fun ps =>
    match takeFirst (fun e => !isFwEvent e) ps.swp.events with
    | some (e, r) => .done (({ ps with swp := { ps.swp with events := r } }.setG o.rd.toNat e).wake) ps.next
    | none => .done (ps.setG o.rd.toNat 0) ps.next)

/-- Entries of the command queue of district `d`'s warden in use (R238). -/
def State.wardenQueue (s : State) (d : DistId) : Nat :=
  ((List.range 144).map (fun i => (Sparse.get ({} : ParcelState) s.parcels (144 * d.val + i)).reports.length)).sum

/-- EVPOST: posts g[RS] to the warden's command queue, which holds 256 (R190, R238); while it is full the producer
waits. -/
def execEvpost (p : Pid) (o : SysOps) (s : State) : Out :=
  s.issueAt p 0 (o.rsv ≠ 0) (fun ps =>
    if s.wardenQueue p.d ≥ 256 then .full
    else .done { ps with reports := ps.reports ++ [.post (ps.gReg o.rs.toNat)] } ps.next)

/-- FENCE. -/
def execFence (p : Pid) (o : SysOps) (s : State) : Out :=
  s.issueAt p 0 (o.rsv ≠ 0) (fun ps => ps.issueWait .fence)

/-- FRET: leaves the firmware bank; with FW = 0 it is ILLEGAL (R179, R190). A wait of the image whose condition has come
to hold ends then. -/
def execFret (p : Pid) (o : SysOps) (s : State) : Out :=
  s.issueAt p 0 (o.rsv ≠ 0 || !(s.parcel p).swp.fw) (fun ps =>
    .done (ParcelState.wake { ps with swp := { ps.swp with fw := false, fwEvent := 0 } }) ps.swp.pc)

/-- WAITQ: nonzero TAG or TK is ILLEGAL (R228, R234). -/
def execWaitq (p : Pid) (o : WaitOps) (s : State) : Out :=
  s.issueAt p 0 (o.rsv ≠ 0 || o.tag ≠ 0 || o.tk ≠ 0) (fun ps => ps.issueWait (.tokens o.mask)) o.tag.toNat

/-- HINT: the parcel's forecast; a DRAW above 320 is read as 320, DUR = 0 cancels (R233). -/
def execHint (p : Pid) (o : HintOps) (s : State) : Out :=
  s.issueAt p 0 (o.rsvHi ≠ 0 || o.rsv ≠ 0) (fun ps =>
    let draw := if o.dur = 0 then 0 else min o.draw.toNat 320
    .done { ps with meter := { ps.meter with forecast := draw, forecastWindows := o.dur.toNat } } ps.next)

/-- HINT_EXPIRY: the forecast in force ends (R233). -/
def execHintExpiry (p : Pid) (s : State) : Out :=
  .next (s.modParcel p (fun ps => { ps with meter := { ps.meter with forecast := 0, forecastWindows := 0 } }))

end Sys2Proof.Machine
end

