-- ==== Sys2Proof/Machine/Vec.lean ====
section
/-!
DEFINITION. Vector instructions (06 R185, R186, R639).
-/
namespace Sys2Proof.Machine

/-- The `n` elements of `w` bits of a vector. -/
def vecElems (w n : Nat) (x : VReg) : List Nat :=
  (List.range n).map (fun i => x.toNat / 2 ^ (w * i) % 2 ^ w)

/-- A vector of elements of `w` bits. -/
def vecOf (w : Nat) (es : List Nat) : VReg := BitVec.ofNat 8192 (packBits w es)

/-- Element bits of ET 0 to 3 (R185). -/
def etBits (et : Nat) : Nat := match et with | 0 => 8 | 1 => 16 | _ => 32

/-- Elements of a vector at ET. -/
def etCount (et : Nat) : Nat := 8192 / etBits et

/-- The signed value of an element. -/
def elemInt (w x : Nat) : Int := (BitVec.ofNat w x).toInt

/-- A signed value as an element, wrapping (R186). -/
def elemOf (w : Nat) (x : Int) : Nat := (BitVec.ofInt w x).toNat

/-- The second operand: v[VS2], or g[RS] broadcast when SC = 1 (R185). -/
def vecB (ps : ParcelState) (o : VecOps) : VReg :=
  let w := etBits o.et.toNat
  if o.sc then vecOf w (List.replicate (etCount o.et.toNat) ((ps.gReg o.rs.toNat).toNat % 2 ^ w))
  else ps.vReg o.vs2.toNat

/-- An element operation: `fi` on signed integers, wrapped, or `ff` on binary32. -/
def elemOp (et : Nat) (fi : Int → Int → Int) (ff : F32 → F32 → F32) (a b : Nat) : Nat :=
  if et = 3 then (ff (BitVec.ofNat 32 a) (BitVec.ofNat 32 b)).toNat
  else elemOf (etBits et) (fi (elemInt (etBits et) a) (elemInt (etBits et) b))

/-- The elements of a vector register at ET. -/
def etElems (et : Nat) (x : VReg) : List Nat := vecElems (etBits et) (etCount et) x

/-- The operand exception of a VEC instruction: ET 4 to 15, or a binary32-only operation with an integer ET (R186). -/
def vecBad (o : VecOps) (fltOnly : Bool) : Bool := o.et.toNat > 3 || (fltOnly && o.et.toNat ≠ 3)

/-- A VEC instruction that writes v[VD] with `f` of the parcel (R185). -/
def vecOp (fltOnly : Bool) (f : ParcelState → VReg) (p : Pid) (o : VecOps) (s : State) : Out :=
  s.issueAt p 1 (o.rsv ≠ 0) (fun ps =>
    if vecBad o fltOnly then .exc 5 else .done (ps.setV o.vd.toNat (f ps)) ps.next)

/-- An elementwise instruction of two operands. -/
def vecZip (fltOnly : Bool) (fi : Int → Int → Int) (ff : F32 → F32 → F32) (p : Pid) (o : VecOps) (s : State) : Out :=
  vecOp fltOnly (fun ps => vecOf (etBits o.et.toNat)
    (List.zipWith (elemOp o.et.toNat fi ff) (etElems o.et.toNat (ps.vReg o.vs1.toNat))
      (etElems o.et.toNat (vecB ps o)))) p o s

/-- An elementwise binary32 instruction of one operand. -/
def vecMap (ff : F32 → F32) (p : Pid) (o : VecOps) (s : State) : Out :=
  vecOp true (fun ps => vecOf 32
    ((vecElems 32 256 (ps.vReg o.vs1.toNat)).map (fun x => (ff (BitVec.ofNat 32 x)).toNat))) p o s

/-- VADD. -/
def execVadd (p : Pid) (o : VecOps) (s : State) : Out := vecZip false (· + ·) f32Add p o s
/-- VSUB. -/
def execVsub (p : Pid) (o : VecOps) (s : State) : Out := vecZip false (· - ·) f32Sub p o s
/-- VMUL. -/
def execVmul (p : Pid) (o : VecOps) (s : State) : Out := vecZip false (· * ·) f32Mul p o s
/-- VMIN. -/
def execVmin (p : Pid) (o : VecOps) (s : State) : Out := vecZip false min f32Min p o s
/-- VMAX. -/
def execVmax (p : Pid) (o : VecOps) (s : State) : Out := vecZip false max f32Max p o s
/-- VDIV, binary32. -/
def execVdiv (p : Pid) (o : VecOps) (s : State) : Out := vecZip true (fun a _ => a) f32Div p o s

/-- VFMA, binary32: vd + vs1 * vs2 rounded once. -/
def execVfma (p : Pid) (o : VecOps) (s : State) : Out :=
  vecOp true (fun ps => vecOf 32
    (List.zipWith (fun c ab => (f32Fma (BitVec.ofNat 32 c) (BitVec.ofNat 32 ab.1) (BitVec.ofNat 32 ab.2)).toNat)
      (vecElems 32 256 (ps.vReg o.vd.toNat))
      (List.zip (vecElems 32 256 (ps.vReg o.vs1.toNat)) (vecElems 32 256 (vecB ps o))))) p o s

/-- VEXP, binary32. -/
def execVexp (p : Pid) (o : VecOps) (s : State) : Out := vecMap f32Exp p o s
/-- VSQRT, binary32. -/
def execVsqrt (p : Pid) (o : VecOps) (s : State) : Out := vecMap f32Sqrt p o s

/-- One level of the fixed tree: pairs (2i, 2i + 1) (R186). -/
def treeLevel : List F32 → List F32
  | a :: b :: r => f32Add a b :: treeLevel r
  | l => l

/-- `n` levels of the fixed tree. -/
def treeSum : Nat → List F32 → List F32
  | 0, l => l
  | n + 1, l => treeSum n (treeLevel l)

/-- The largest element (R185, R186). -/
def vecMaxOf (et : Nat) (es : List Nat) : Nat :=
  match es with
  | [] => 0
  | e :: r => r.foldl (elemOp et max f32Max) e

/-- A reduction's result in g[RD]: an integer sign-extended, a binary32 in bits 31:0 (R639). -/
def redWord (et x : Nat) : Word :=
  if et = 3 then BitVec.ofNat 64 x else BitVec.ofInt 64 (elemInt (etBits et) x)

/-- VRMAX. -/
def execVrmax (p : Pid) (o : VecOps) (s : State) : Out :=
  s.issueAt p 1 (o.rsv ≠ 0) (fun ps =>
    if vecBad o false then .exc 5
    else .done (ps.setG o.rd.toNat
      (redWord o.et.toNat (vecMaxOf o.et.toNat (etElems o.et.toNat (ps.vReg o.vs1.toNat))))) ps.next)

/-- The sum of a vector: exact modulo two to the 64, or the fixed tree in binary32 (R186). -/
def vecSum (et : Nat) (x : VReg) : Word :=
  if et = 3 then
    match treeSum 8 ((vecElems 32 256 x).map (BitVec.ofNat 32)) with
    | r :: _ => r.setWidth 64
    | [] => 0
  else BitVec.ofInt 64 ((etElems et x).map (elemInt (etBits et))).sum

/-- VRSUM. -/
def execVrsum (p : Pid) (o : VecOps) (s : State) : Out :=
  s.issueAt p 1 (o.rsv ≠ 0) (fun ps =>
    if vecBad o false then .exc 5
    else .done (ps.setG o.rd.toNat (vecSum o.et.toNat (ps.vReg o.vs1.toNat))) ps.next)

/-- VMOV: vs1, or the broadcast when SC = 1. -/
def execVmov (p : Pid) (o : VecOps) (s : State) : Out :=
  vecOp false (fun ps => if o.sc then vecB ps o else ps.vReg o.vs1.toNat) p o s

end Sys2Proof.Machine
end

