-- ==== Sys2Proof/Machine/Boundary.lean ====
section
/-!
DEFINITION. The boundary between two instructions: what the instruction at the PC would do, and FIRMWARE_EVENT_TAKE (06 R170, R192,
R201; 01 R28).
-/
namespace Sys2Proof.Machine

/-- What the issue of an instruction of Plat answers. -/
def platRun (s : State) : Instr → Option Out
  | .add q o => some (execAdd q o s)
  | .sub q o => some (execSub q o s)
  | .and q o => some (execAnd q o s)
  | .or q o => some (execOr q o s)
  | .xor q o => some (execXor q o s)
  | .sll q o => some (execSll q o s)
  | .srl q o => some (execSrl q o s)
  | .sra q o => some (execSra q o s)
  | .slt q o => some (execSlt q o s)
  | .sltu q o => some (execSltu q o s)
  | .min q o => some (execMin q o s)
  | .max q o => some (execMax q o s)
  | .mul q o => some (execMul q o s)
  | .mulh q o => some (execMulh q o s)
  | .div q o => some (execDiv q o s)
  | .divu q o => some (execDivu q o s)
  | .rem q o => some (execRem q o s)
  | .remu q o => some (execRemu q o s)
  | .clz q o => some (execClz q o s)
  | .popc q o => some (execPopc q o s)
  | .li q o => some (execLi q o s)
  | .lhi q o => some (execLhi q o s)
  | .ld8s q o => some (execLd8s q o s)
  | .ld8u q o => some (execLd8u q o s)
  | .ld16s q o => some (execLd16s q o s)
  | .ld16u q o => some (execLd16u q o s)
  | .ld32s q o => some (execLd32s q o s)
  | .ld32u q o => some (execLd32u q o s)
  | .ld64 q o => some (execLd64 q o s)
  | .st8 q o => some (execSt8 q o s)
  | .st16 q o => some (execSt16 q o s)
  | .st32 q o => some (execSt32 q o s)
  | .st64 q o => some (execSt64 q o s)
  | .vld q o => some (execVld q o s)
  | .vst q o => some (execVst q o s)
  | .beq q o => some (execBeq q o s)
  | .bne q o => some (execBne q o s)
  | .blt q o => some (execBlt q o s)
  | .bge q o => some (execBge q o s)
  | .bltu q o => some (execBltu q o s)
  | .bgeu q o => some (execBgeu q o s)
  | .jal q o => some (execJal q o s)
  | .jalr q o => some (execJalr q o s)
  | .vadd q o => some (execVadd q o s)
  | .vsub q o => some (execVsub q o s)
  | .vmul q o => some (execVmul q o s)
  | .vmin q o => some (execVmin q o s)
  | .vmax q o => some (execVmax q o s)
  | .vdiv q o => some (execVdiv q o s)
  | .vfma q o => some (execVfma q o s)
  | .vexp q o => some (execVexp q o s)
  | .vsqrt q o => some (execVsqrt q o s)
  | .vrmax q o => some (execVrmax q o s)
  | .vrsum q o => some (execVrsum q o s)
  | .vmov q o => some (execVmov q o s)
  | .cvt q o => some (execCvt q o s)
  | .smax q o => some (execSmax q o s)
  | .stopk q o => some (execStopk q o s)
  | .scum q o => some (execScum q o s)
  | .sword q o => some (execSword q o s)
  | .spen q o => some (execSpen q o s)
  | .nop q o => some (execNop q o s)
  | .csrr q o => some (execCsrr q o s)
  | .csrw q o => some (execCsrw q o s)
  | .evwait q o => some (execEvwait q o s)
  | .evpop q o => some (execEvpop q o s)
  | .evpost q o => some (execEvpost q o s)
  | .fence q o => some (execFence q o s)
  | .fret q o => some (execFret q o s)
  | .lmv q o => some (execLmv q o s)
  | .lmva q o => some (execLmva q o s)
  | .dmm q o => some (execDmm q o s)
  | .dmg q o => some (execDmg q o s)
  | .ats q o => some (execAts q o s)
  | .atv q o => some (execAtv q o s)
  | .atx q o => some (execAtx q o s)
  | .kap q o => some (execKap q o s)
  | .ldq q o => some (execLdq q o s)
  | .stq q o => some (execStq q o s)
  | .waitq q o => some (execWaitq q o s)
  | .snd q o => some (execSnd q o s)
  | .rcv q o => some (execRcv q o s)
  | .mcs q o => some (execMcs q o s)
  | .hint q o => some (execHint q o s)
  | _ => none

/-- Whether a parcel's reports end in a precise exception that was not there before. -/
def ParcelState.excepted (before after : ParcelState) : Bool :=
  decide (before.reports.length < after.reports.length) &&
  (match after.reports.getLast? with
   | some (.exception _ 0 _ _ _) => true
   | _ => false)

/-- Whether the instruction that would issue next in the image raises a precise exception (R199, R201). -/
def State.nextRaises (s : State) (p : Pid) : Bool :=
  let ps := s.parcel p
  if !ps.ready then false
  else if ps.fetchBad then true
  else match platDecode p (ps.fetchWord s.boot.fwStore) with
    | none => true
    | some i =>
      match platRun s i with
      | some (.next t) => ps.excepted (t.parcel p)
      | _ => false

/-- FIRMWARE_EVENT_TAKE: at an instruction boundary with FW = 0 the sweeper takes the oldest firmware event and switches to the firmware
bank; the routine of a recompute event reads its codes (R101, R170, R192). An exception of the next instruction is taken before it, and
the event stays queued until issue resumes (R201). Under a STOP only recompute events are taken (R28, R106). DESIGN CHOICE (log 124):
an image that waits in EVWAIT, WAITQ or FENCE stands at an instruction boundary. -/
def State.firmwareEventTake (s : State) (p : Pid) : State :=
  let ps := s.parcel p
  if !s.running p || ps.swp.inReset || ps.swp.halted || ps.health.bollard || ps.swp.fw || s.nextRaises p then s
  else match takeFirst (fun e => isFwEvent e && (!ps.swp.stopped || isRecompute e)) ps.swp.events with
    | none => s
    | some (e, r) =>
      (State.startRoutine (s.setParcel p { ps with swp := { ps.swp with
        events := r
        fw := true
        fwEvent := e
        fpc := Config.fwEntry e } }) p e).modParcel p ParcelState.wake

/-- FIRMWARE_EVENT_TAKE. -/
def execFirmwareEventTake (p : Pid) (s : State) : Out := .next (s.firmwareEventTake p)

end Sys2Proof.Machine
end

