-- ==== Sys2Proof/Machine/KvPlan.lean ====
section
/-!
DEFINITION. KV_PLAN: homes, frames, location vectors and the step page list of a member before its pass (10 R317 to R325, R327).
-/
namespace Sys2Proof.Machine

/-! ### KV_PLAN (R320 to R325, R327) -/

/-- Whether the member holds the summary of a page, under the slot or under the prefix the slot was opened from. -/
def State.hasSummary (s : State) (k : KvState) (slot head n : Nat) : Bool :=
  k.summaries.contains (slot, head, n) ||
  ((Sparse.get ({} : Slot) s.serve.slots slot).from_.any (fun f => k.summaries.contains (f, head, n)))

/-- Whether every summary that the step needs is present (R318). -/
def State.summariesReady (s : State) (p : Pid) (st : Step) : Bool :=
  let ps := s.parcel p
  st.slots.all (fun b => ps.heads.all (fun h => (List.range (st.ns b.2 - 8)).all (fun n => s.hasSummary ps.kv b.2 h n)))

/-- The tenant that a slot works for. -/
def State.slotTenant (s : State) (slot : Nat) : Option Nat :=
  match s.serve.reqs.find? (fun (r : Request) => r.slot == slot) with
  | some r => some r.tenant
  | none => match s.serve.prefixes.find? (fun (x : Prefix) => x.slot == slot) with
    | some x => some x.tenant
    | none => (s.serve.steps.flatMap Step.rows).findSome? (fun (r : Row) => if r.slot = slot then some r.tenant else none)

/-- The homes a tenant holds on this engine. -/
def State.tenantHomes (s : State) (t : Nat) : Nat :=
  (s.parcels.map (fun x => (x.2.kv.pages.filter (fun (g : Page) =>
    (g.refs.head?.bind s.slotTenant) == some t)).length)).sum

/-- Page `n` of a slot and head opened at the member (R320 step 1, R327): a home and a zeroed summary entry; the partial
last page of the prefix the slot was opened from is copied. `none` where no home is free or the tenant's quota is reached
(R324). -/
def State.openPage (s : State) (p : Pid) (slot head n : Nat) : Option State :=
  let k := (s.parcel p).kv
  if (k.page slot head n).isSome then some s
  else
    let t := (s.slotTenant slot).getD 0
    if s.tenantHomes t ≥ (Sparse.get ({} : Tenant) s.serve.tenants t).pages then none
    else (s.parcel p).takeHome.bind (fun h =>
      ((s.setParcel p h.2).openTable p slot head).map (fun tb =>
        let ps := tb.2.parcel p
        let g : Page := {
          slot := slot
          head := head
          n := n
          home := h.1
          frame := none
          sealed := false
          refs := [slot] }
        let s1 := tb.2.setParcel p { ps with kv := { ps.kv with pages := ps.kv.pages ++ [g] } }
        let s2 := s1.rawWrite (ps.sumAddr tb.1) (144 * n) (List.replicate 144 0)
        match (Sparse.get ({} : Slot) s.serve.slots slot).from_.bind (fun f => k.page f head n) with
        | some src => s2.stackPut (ps.homeAt h.1) (s2.stackRead (ps.homeAt src.home) 55296)
        | none => s2))

/-- The summary entries of the prefix's full pages copied for a slot that has none yet (R327). -/
def State.copySummaries (s : State) (p : Pid) (slot head : Nat) : State :=
  let k := (s.parcel p).kv
  match (Sparse.get ({} : Slot) s.serve.slots slot).from_ with
  | none => s
  | some f =>
    match k.tableOf f head with
    | none => s
    | some i =>
      let full := (Sparse.get ({} : Slot) s.serve.slots f).len / 256
      (k.summaries.filter (fun x => x.1 == f && x.2.1 == head && x.2.2 < full &&
          !k.summaries.contains (slot, head, x.2.2))).foldl (fun (t : State) x =>
        t.putSummary p slot head x.2.2 (t.rawRead ((t.parcel p).sumAddr i) (144 * x.2.2) 144)) s

/-- A step without the rows of a slot: the rows that stay are numbered anew, and what names a row with them. -/
def Step.without (st : Step) (slot : Nat) : Step :=
  let keep := st.rows.zipIdx.filter (fun x => x.1.slot ≠ slot)
  let new (i : Nat) : Nat := keep.findIdx (fun x => x.2 == i)
  { st with
    rows := keep.map (fun x => if x.1.tree then { x.1 with parent := new x.1.parent } else x.1)
    lens := st.lens.filter (fun x => x.1 ≠ slot)
    need := keep.length
    nan := (st.nan.filter (fun i => keep.any (fun x => x.2 == i))).map new }

/-- A request whose pages cannot be had is left out of its step, whose descriptor is written anew and sent to the group, and completes
with QUOTA_EXCEEDED (R324). DESIGN CHOICE (log 132): only the step's owner does so; at another engine the member waits. -/
def State.overQuota (s : State) (num slot : Nat) : State :=
  match s.stepOf num, s.requestAt slot with
  | some st, some r =>
    if st.owner ≠ s.model.ordinal then s
    else
      let st1 := st.without slot
      let s1 := ((s.modStep num (fun _ => st1)).rawWrite (descAddr st.desc) 0 (descBytes st1)).complete r stQuota 0 s.time.ns
        (Config.noStep s.serve.finished.length)
      (if st1.rows.isEmpty then s1.endStep num else s1.sendStep st1).drainEnd
  | _, _ => s

/-- Step 1 of R320 for one slot: its tables, its pages from L to L + 31 for every head, and the summaries it takes over. -/
def State.openSlot (s : State) (p : Pid) (st : Step) (slot : Nat) : State :=
  let ps := s.parcel p
  let l := st.lenOf slot
  let tables := ps.heads.foldl (fun (a : Option State) h => a.bind (fun (t : State) =>
    (t.openTable p slot h).map Prod.snd)) (some s)
  let go := (ps.heads.flatMap (fun h => (ps.owned (l / 256) ((l + 31) / 256)).map (fun n => (h, n)))).foldl
    (fun (a : Option State) x => a.bind (fun (t : State) => t.openPage p slot x.1 x.2)) tables
  match go with
  | none => s.overQuota st.num slot
  | some t =>
    let t1 := ps.heads.foldl (fun (u : State) h => u.copySummaries p slot h) t
    t1.modParcel p (fun q => { q with kv := { q.kv with
      open_ := (q.kv.open_.filter (fun (o : OpenSlot) => o.slot ≠ slot)) ++ [{ slot := slot, len := l, step := st.num }] } })

/-- The pages that KV_PLAN makes hot, in order: open pages and pages that may open, then sealed pages from the highest
index down, slot by slot (R320 steps 2 and 3). -/
def wantedPages (ps : ParcelState) (st : Step) : List Page :=
  let opens := st.slots.flatMap (fun b =>
    let l := st.lenOf b.2
    ps.heads.flatMap (fun h => (ps.owned (l / 256) ((l + 31) / 256)).filterMap (fun n => ps.kv.page b.2 h n)))
  let sealedOf := st.slots.flatMap (fun b =>
    ((List.range (st.ns b.2)).reverse).flatMap (fun n => ps.heads.filterMap (fun h =>
      (ps.kv.page b.2 h n).bind (fun g => if g.sealed then some g else none))))
  ((opens ++ sealedOf).eraseDups).take ps.kv.nframe

/-- Rows of a page that are committed for the slot it is loaded for. -/
def pageRows (st : Step) (g : Page) : Nat :=
  if g.sealed then 256 else (g.refs.map (fun sl => min 256 (st.lenOf sl - 256 * g.n))).foldl max 0

/-- Record `i` of a home as its frame receives it: rows at or above `rows` read 0 (R305). -/
def maskRecord (rows i : Nat) (b : List Byte) : List Byte :=
  if i < 512 then (if i % 256 < rows then b else List.replicate 68 0)
  else
    let m := i % 128
    if 2 * m ≥ rows then List.replicate 68 0
    else if 2 * m + 1 ≥ rows then
      b.take 2 ++ [0, 0] ++ (b.drop 4).take 32 ++ List.replicate 32 0
    else b

/-- A page loaded from its home into frame `f`: a record that is lost or fails its CRC is a data fault and is not written
(R151, R307). -/
def State.fillFrame (s : State) (p : Pid) (st : Step) (g : Page) (f : Nat) : State :=
  let rows := pageRows st g
  (List.range 768).foldl (fun (t : State) i =>
    let ps := t.parcel p
    let r := t.stackRead (ps.homeAt g.home + 72 * i) 72
    let live := if i < 512 then i % 256 < rows else 2 * (i % 128) < rows
    let at_ := ps.kv.frameAt f + 68 * i
    if !live then t.setParcel p (ps.write at_ (List.replicate 68 0))
    else if t.stk.lostRecs.contains (ps.homeAt g.home + 72 * i) then t.setParcel p (ps.dataFault .lost st.num)
    else if !recordOk r then t.setParcel p (ps.dataFault (.record (ps.homeAt g.home + 72 * i)) st.num)
    else t.setParcel p (ps.write at_ (maskRecord rows i (r.take 68)))) s

/-- A page put into a frame: a free one, else that of the lowest frame whose page is not wanted (R320 step 3). DESIGN
CHOICE (log 21): the manual leaves the order of eviction open. -/
def State.makeHot (s : State) (p : Pid) (st : Step) (want : List Page) (g : Page) : State :=
  let ps := s.parcel p
  let k := ps.kv
  if k.pages.any (fun (x : Page) => x.home == g.home && x.frame.isSome) then s
  else
    let used := k.pages.filterMap Page.frame
    let free := (List.range k.nframe).find? (fun f => !used.contains f)
    let evict := (List.range k.nframe).find? (fun f =>
      k.pages.any (fun (x : Page) => x.frame == some f && !want.any (fun (w : Page) => w.home == x.home)))
    match (match free with | some f => some (f, 0) | none => evict.map (fun f => (f, 1))) with
    | none => s
    | some (f, n) =>
      let ps1 := { ps with kv := { k with
        pages := k.pages.map (fun (x : Page) =>
          if x.home = g.home then { x with frame := some f } else if x.frame = some f then { x with frame := none } else x)
        promotes := satAdd 16 k.promotes 1
        evicts := satAdd 16 k.evicts n } }
      (s.setParcel p ps1).fillFrame p st g f

/-- The word of a page in the location vector (R322). -/
def locWord (ps : ParcelState) (g : Page) : Nat :=
  (match g.frame with | some f => 2 ^ 63 + f * 2 ^ 56 | none => 0) + ps.homeAt g.home

/-- The location vectors and the step page list (R321, R322). Of an entry whose b is not in the step only SLOT is
written. -/
def State.writeLists (s : State) (p : Pid) (st : Step) : State :=
  let ps := s.parcel p
  let entry (b k : Nat) : Nat := ps.kv.splBase + 32 * (b * ps.kv.nkvh + k)
  let s1 := (List.range 256).foldl (fun (t : State) b =>
    if st.slots.any (fun x => x.1 == b) then t
    else t.modParcel p (fun q => (List.range ps.kv.nkvh).foldl (fun (u : ParcelState) k =>
      u.write (entry b k) [0xFF, 0xFF]) q)) s
  st.slots.foldl (fun (t : State) b => (ps.heads.zipIdx).foldl (fun (u : State) h =>
    let q := u.parcel p
    let own := (q.owned 0 (st.ns b.2)).filterMap (fun n => q.kv.page b.2 h.1 n)
    let i := (q.kv.tableOf b.2 h.1).getD 0
    let u1 := u.rawWrite (q.locAddr i) 0 (own.flatMap (fun g => leBytes (locWord q g) 8))
    u1.modParcel p (fun x => x.write (entry b.1 h.2)
      (leBytes b.2 2 ++ leBytes h.1 2 ++ leBytes (st.lenOf b.2) 4 ++ leBytes (q.locAddr i) 8 ++ leBytes (q.sumAddr i) 8 ++
        leBytes own.length 2 ++ leBytes 0 6))) t) s1

/-- Whether a parcel's pass is over (R320): no pass of a step that goes on was started at it, or its image waits for an event with no unit
instruction under way, or its sweeper does not run. DEDUCED (log 133): the manual names no event that ends a pass. -/
def State.passOver (s : State) (p : Pid) : Bool :=
  let ps := s.parcel p
  let idle := match ps.swp.wait with
    | some (.event _) => ps.swp.events.isEmpty && ps.tokens.all (fun t => t.2 == 0)
    | _ => false
  idle || ps.swp.inReset || ps.swp.halted || (match s.stepOf (ps.swp.step.toNat % 2 ^ 32) with
    | none => true
    | some st => st.since = 0 || st.committed || st.doneSent || st.spoiled || !ps.kv.planned st)

/-- KV_PLAN at a member: homes, frames, location vectors and the step page list (R320). It waits while the pass before goes on, and while
a summary that the step needs is missing (R318). -/
def State.kvPlan (s : State) (p : Pid) (num : Nat) : State :=
  match s.stepOf num with
  | none => s
  | some st =>
    if !s.running p || (s.parcel p).kv.nframe = 0 || !s.passOver p || !s.summariesReady p st then s
    else
      let s1 := st.slots.foldl (fun (t : State) b => t.openSlot p st b.2) s
      match s1.stepOf num with
      | none => s1
      | some st1 =>
        let want := wantedPages (s1.parcel p) st1
        (want.foldl (fun (t : State) g => t.makeHot p st1 want g) s1).writeLists p st1

/-- KV_PLAN. -/
def execKvPlan (p : Pid) (step : BitVec 32) (s : State) : Out := .next (s.kvPlan p step.toNat)

end Sys2Proof.Machine
end

