-- ==== Sys2Proof/Machine/Links.lean ====
section
/-!
DEFINITION. Ports and links: the rows LINK_DOWN, LINK_UP, PORT_LOST, PORT_OSC_FAIL, TRANSCEIVER_INSERT, EYE_MEASURE, PTP_MESSAGE,
PTP_SYNC_LOSS, FABRIC_SET_CONFIG and RING_BIND (14 R423 to R428, R434, R443 to R449; 16 R501; 18 R536; 23 R627).
-/
namespace Sys2Proof.Machine

/-! ### Links down and up (R425, R434, R446, R449, R536) -/

/-- LINK_DOWN. -/
def execLinkDown (link : Fin 128) (s : State) : Out := .next (s.linkDown link.val)

/-- LINK_UP: a link that trained and was stable for 1 ms; a PORT traverse then takes the next link down (R529). `pol` gives the inverted
lanes of the port, `eyes` the widths of the link's lanes. -/
def State.linkUp (s : State) (l : Nat) (pol : BitVec 8) (eyes : List (BitVec 8)) : State :=
  let x := s.port (l / 8)
  let j := l % 8
  if !s.fab.ok || j ≥ (modeLinks x.mode).1 || x.oscFail || x.linkUp.getLsbD j then s
  else
    let m := laneMask (x.lanesOf j)
    let x1 := { x with
      linkUp := x.linkUp ||| BitVec.ofNat 8 (2 ^ j)
      laneBad := x.laneBad &&& ~~~ m
      pol := (x.pol &&& ~~~ m) ||| (pol &&& m) }
    let old := (List.range 8).map (fun i => Sparse.get 0 x1.eyes i)
    let new := (List.range 8).map (fun i =>
      if (x.lanesOf j).contains i then eyes.getD (i - modeLanes x.mode * j) 0 else old.getD i 0)
    (((s.setPort (l / 8) x1).setEyes (l / 8) new).moveConns).retrainNext (l / 8)

/-- LINK_UP. -/
def execLinkUp (link : Fin 128) (pol : BitVec 8) (eyes : List (BitVec 8)) (s : State) : Out :=
  .next (s.linkUp link.val pol eyes)

/-- PORT_LOST: a port block with no live link, or with no route: what is in it is lost and the step replayed. -/
def State.portLost (s : State) (k : PortId) : State :=
  let reachable := (List.range 60).any (fun d => s.live d && s.portLive d k)
  if reachable then s
  else
    let s1 := { s with net := { s.net with flits := s.net.flits.filter (fun (f : Flit) =>
      !(f.loc == Loc.sink (.port k) || (f.loc == Loc.source && f.src == Endpoint.port k))) } }
    (s1.event { code := 49, severity := 1, detail := leBytes k.val 1 }).spoil

/-- PORT_LOST. -/
def execPortLost (port : PortId) (s : State) : Out := .next (s.portLost port)

/-- PORT_OSC_FAIL: every link of the port goes down; then it is a port block with no live link. -/
def execPortOscFail (port : PortId) (s : State) : Out :=
  .next (if s.core.st = .off || (s.port port.val).oscFail then s
    else
      let s1 := (List.range 8).foldl (fun (t : State) j => t.linkDown (8 * port.val + j)) s
      (s1.setPort port.val { s1.port port.val with oscFail := true }).portLost port)

/-- TRANSCEIVER_INSERT: the port's links train anew; `laneBad` are the lanes without signal. -/
def execTransceiverInsert (port : PortId) (laneBad : BitVec 8) (s : State) : Out :=
  .next (if s.core.st = .off || (s.port port.val).linkUp ≠ 0 then s
    else s.setPort port.val { s.port port.val with laneBad := laneBad, pol := 0 })

/-- EYE_MEASURE: the widths of the lanes whose links are up. -/
def execEyeMeasure (port : PortId) (eyes : List (BitVec 8)) (s : State) : Out :=
  .next (
    if (s.upLinks port.val).isEmpty then s else s.setEyes port.val ((s.port port.val).shownEyes eyes))

/-! ### Engine time (R447, R448, R451) -/

/-- A number limited to 32 bits signed. -/
def satOffset (x : Int) : Int := max (-2147483648) (min 2147483647 x)

/-- A measured offset, of the engine's counter against its source: in SERVING and DRAINING it is slewed away; in other states it is
stepped when it exceeds 1 µs. DEDUCED (log 48): time never runs backward, so a counter that is ahead is slewed in every state. -/
def Time.discipline (t : Time) (offset : Int) (port : Nat) (steps : Bool) : Time :=
  let t1 := { t with offset := satOffset offset, srcPort := port, sync := true }
  if steps && offset < -1000 then { t1 with ns := t.ns + offset.natAbs, slew := 0 } else { t1 with slew := offset }

/-- Whether PTP is taken on a port: a management port, or a data port with a live link. -/
def State.ptpPort (s : State) (k : Nat) : Bool := k == 16 || k == 17 || (List.range 8).any (fun j => k < 16 && s.linkLive (8 * k + j))

/-- PTP_MESSAGE. -/
def execPtpMessage (o : PtpOps) (s : State) : Out :=
  .next (if s.core.st = .off || !s.ptpPort o.port then s
    else { s with time := s.time.discipline o.offset o.port (!s.inState [.serving, .draining]) })

/-- PTP_SYNC_LOSS: the counter runs free. -/
def execPtpSyncLoss (s : State) : Out := .next { s with time := { s.time with sync := false, slew := 0 } }

/-! ### FABRIC_SET_CONFIG (R423, R426 to R429) -/

/-- The configuration that its operands give. -/
def fabricCfgOf (o : FabricOps) : FabricCfg :=
  { engineId := o.engineId.toNat
    encap := o.encap.toNat
    prio := o.prio.toNat
    domain := o.domain.toNat
    modes := o.modes.map BitVec.toNat
    ipPrefix := o.ipPrefix
    qKey := o.qKey
    ip0 := o.ip0
    ip1 := o.ip1 }

/-- Whether the operands are well formed. DEDUCED (log 49): ENCAP is 0 or 1 and PRIO 0 to 7, the values their fields have. -/
def fabricOk (o : FabricOps) : Bool :=
  o.engineId.toNat ≤ 10239 && o.encap.toNat ≤ 1 && o.prio.toNat ≤ 7 && o.modes.length == 16 &&
  o.modes.all (fun m => m.toNat ≤ 11)

/-- The links of a port whose mode changes go down to train anew. -/
def State.retrain (s : State) (k mode : Nat) : State :=
  if (s.port k).mode = mode then s
  else (List.range 8).foldl (fun (t : State) j => t.linkDown (8 * k + j)) s

/-- A configuration stored and applied. -/
def State.setFabric (s : State) (f : FabricCfg) : State :=
  let s1 := f.modes.zipIdx.foldl (fun (t : State) x => t.retrain x.2 x.1) s
  { s1 with nv := { s1.nv with fabric := some f, fabricOk := true } }.applyFabric

/-- FABRIC_SET_CONFIG. -/
def execFabricSetConfig (m : MgmtHdr) (o : FabricOps) (s : State) : Out :=
  .next (s.hostCmd (cmdFor (.fabricSetConfig m o)) (fun t =>
    checked (fabricOk o) (t.inState [.standby, .fault]) (fun u => .ok (u.setFabric (fabricCfgOf o))) t))

/-! ### RING_BIND (R443) -/

/-- A ring bound: its old connection fails first. Which QPN and rkey it gets is free. -/
def State.ringBind (s : State) (o : BindOps) : CmdOut :=
  let r := o.ring.toNat
  let s1 := if (s.conn r).bound && !(s.conn r).failed then s.failConn r else s
  let q := Config.ringQpn s.free
  let k := Config.ringRkey s.free
  let s2 := s1.setConn r {
    bound := true
    clientIp := o.clientIp
    clientQpn := o.clientQpn.toNat
    qpn := q.toNat
    rkey := k.toNat
    mtu := o.mtu.toNat
    psnOut := o.enginePsn.toNat
    psnIn := o.clientPsn.toNat
    link := s1.liveLinks.headD 128 }
  .done { s2 with free := s2.free + 1 } { status := stOk, results := leBytes q.toNat 4 ++ leBytes k.toNat 4 }

/-- RING_BIND. -/
def execRingBind (m : MgmtHdr) (o : BindOps) (s : State) : Out :=
  .next (s.hostCmd (cmdFor (.ringBind m o)) (fun t =>
    checked (o.ring.toNat < 128 && o.mtu.toNat ≤ 2 && o.clientQpn.toNat < 2 ^ 24 && o.clientPsn.toNat < 2 ^ 24 &&
        o.enginePsn.toNat < 2 ^ 24) (t.inState [.loaded, .serving, .draining]) (fun u => u.ringBind o) t))

end Sys2Proof.Machine
end

