-- ==== Sys2Proof/Machine/Thermal.lean ====
section
/-!
DEFINITION. Thermal protection and coolant: the rows SENSOR_SAMPLE, THERMAL_STEP, TEMP_DISAGREE, FLOW_UPDATE, FLOW_NOTICE, FLOW_FAIL,
SWITCH_FAIL, COOLANT_LOST, COOLANT_TRIP, FLOW_RETURN, REVERSED_FLOW, REVERSED_CLEAR, INLET_RANGE, LEAK, VALVE_SAT, SET_VALVE,
FORECAST_COMPUTE and FORECAST_MESSAGE (17 R504 to R522; 15 R464).
-/
namespace Sys2Proof.Machine

/-! ### Sensors (R504 to R506) -/

/-- A reading within a range; none where the wires read open or shorted, or where it lies outside. -/
def readingIn (lo hi : Int) : Reading → Option Int
  | .value x => if lo ≤ x && x ≤ hi then some x else none
  | .failed => none

/-- The higher of two readings of which either may be missing. -/
def higher (a b : Option Int) : Option Int :=
  match a, b with
  | some x, some y => some (max x y)
  | some x, none => some x
  | none, y => y

/-- A site after a sample; a failed sensor stays failed. With none left it reads 105.0 °C. -/
def Site.sample (x : Site) (a b : Reading) : Site :=
  let ra := if x.aFail then none else readingIn (-400) 1500 a
  let rb := if x.bFail then none else readingIn (-400) 1500 b
  { x with aFail := ra.isNone, bFail := rb.isNone, temp := (higher ra rb).getD 1050 }

/-- Sensors of a site newly failed. -/
def Site.newFails (old new : Site) : Nat :=
  (if new.aFail && !old.aFail then 1 else 0) + (if new.bFail && !old.bFail then 1 else 0)

/-- A parcel's sensor after a sample. -/
def ParcelHealth.sample (h : ParcelHealth) (r : Reading) : ParcelHealth :=
  match if h.tempFail then none else readingIn (-400) 1500 r with
  | some x => { h with temp := x }
  | none => { h with tempFail := true }

/-- The sites of a district. -/
def siteReadings (a b : SiteReadings) : List (Nat × Reading × Reading) :=
  [(0, a.s0, b.s0), (1, a.s1, b.s1), (2, a.s2, b.s2), (3, a.s3, b.s3)]

/-- A district's sites after a sample, T_site and T_max; `warm` are the working parcel sensors' readings. -/
def DistState.sample (x : DistState) (a b : SiteReadings) (warm : List Int) : DistState :=
  let sites := (siteReadings a b).foldl (fun (m : Sparse Site) e =>
    Sparse.put m e.1 ((Sparse.get {} m e.1).sample e.2.1 e.2.2)) x.sites
  let temp (k : Nat) : Int := (Sparse.get ({} : Site) sites k).temp
  let t := max (max (temp 0) (temp 1)) (max (temp 2) (temp 3))
  let m := warm.foldl max t
  { x with
    sites := sites
    tSite := t
    tMax := m
    notice := if m ≥ 950 then true else if m < 920 then false else x.notice
    trip115 := if t ≥ 1150 then x.trip115 + 1 else 0 }

/-- Sensors counted as newly failed, each site's with an event (R505, R522). -/
def State.sensorsFailed (s : State) (d sites parcels : Nat) : State :=
  (List.range sites).foldl (fun (t : State) _ => t.event { code := 14, d := d })
    { s with cool := { s.cool with sensFail := satAdd 16 s.cool.sensFail (sites + parcels) } }

/-- SENSOR_SAMPLE: sensors judged, T_site and T_max formed, TEMP_NOTICE raised at a crossing; the second sample at 115 °C trips the
district. -/
def State.sensorSample (s : State) (d : DistId) (a b : SiteReadings) (ps : List (Fin 144 × Reading)) : State :=
  let x := s.dist d.val
  if !forwards x.st then s
  else
    let s1 := ps.foldl (fun (t : State) e => t.modParcel { d := d, p := e.1 } (fun q =>
      { q with health := q.health.sample e.2 })) s
    let pid (e : Fin 144 × Reading) : Pid := { d := d, p := e.1 }
    let warm := (ps.map (fun e => (s1.parcel (pid e)).health)).filterMap (fun h => if h.tempFail then none else some h.temp)
    let bad := (ps.filter (fun e => (s1.parcel (pid e)).health.tempFail && !(s.parcel (pid e)).health.tempFail)).length
    let y := x.sample a b warm
    let new := ((List.range 4).map (fun k => Site.newFails (Sparse.get {} x.sites k) (Sparse.get {} y.sites k))).sum
    let s2 := (s1.setDist d.val y).sensorsFailed d.val new bad
    let s3 := if y.notice && !x.notice then
        ({ s2 with cool := { s2.cool with notices := satAdd 16 s2.cool.notices 1 } }).event { code := 12, d := d.val }
      else s2
    if y.trip115 ≥ 2 then (s3.modDist d.val (fun z => { z with trip115 := 0 })).tripAll d.val stThermal 8 else s3

/-- SENSOR_SAMPLE. -/
def execSensorSample (d : DistId) (a b : SiteReadings) (parcels : List (Fin 144 × Reading)) (s : State) : Out :=
  .next (s.sensorSample d a b parcels)

/-! ### S_therm (R507, R508) -/

/-- S_therm after a step at T_max. -/
def thermNext (t : Int) (sc : Nat) : Nat :=
  if t ≥ 1050 then max 16 (sc - 32) else if t < 1020 then min 256 (sc + 8) else sc

/-- THERMAL_STEP. -/
def execThermalStep (d : DistId) (s : State) : Out :=
  .next (
    let x := s.dist d.val
    if !forwards x.st then s
    else
      let n := thermNext x.tMax x.sTherm
      let s1 := s.setDist d.val { x with sTherm := n }
      if n < x.sTherm then { s1 with cool := { s1.cool with thrSteps := satAdd 16 s1.cool.thrSteps 1 } } else s1)

/-! ### Disagreement (R505, R509) -/

/-- A coolant pair with its disagreement as given. -/
def CoolPair.judge (c : CoolPair) (b : Bool) : CoolPair := { c with disagree := b && !c.aFail && !c.bFail }

/-- A site's disagreement: both sensors must work to differ. -/
def State.siteDisagree (s : State) (d k : Nat) (b : Bool) : State :=
  let x := s.dist d
  let st := Sparse.get {} x.sites k
  if !forwards x.st || (b && (st.aFail || st.bFail)) then s
  else
    let s1 := s.setDist d { x with sites := Sparse.put x.sites k { st with disagree := b } }
    if b && !st.disagree then
      ({ s1 with cool := { s1.cool with disagree := satAdd 16 s1.cool.disagree 1 } }).event { code := 13, d := d }
    else s1

/-- TEMP_DISAGREE: the two sensors of a pair differ by more than 5 °C for more than 10 ms, or agree again for 1 s. -/
def execTempDisagree (place : SensorPlace) (disagree : Bool) (s : State) : Out :=
  .next (match place with
    | .site d k => s.siteDisagree d.val k.val disagree
    | .inPort =>
      let c := s.cool.inlet.judge disagree
      let s1 := { s with cool := { s.cool with inlet := c } }
      if c.disagree && !s.cool.inlet.disagree then s1.event { code := 13 } else s1
    | .outPort =>
      let c := s.cool.outlet.judge disagree
      let s1 := { s with cool := { s.cool with outlet := c } }
      if c.disagree && !s.cool.outlet.disagree then s1.event { code := 13 } else s1)

/-! ### Coolant readings (R509, R510, R517) -/

/-- A coolant pair after a sample. DEDUCED (log 50): no district and no traverse judges these sensors afresh, so one works again
once its reading is in range. -/
def CoolPair.sample (c : CoolPair) (a b : Reading) : CoolPair :=
  let ra := readingIn (-4000) 15000 a
  let rb := readingIn (-4000) 15000 b
  { aFail := ra.isNone
    bFail := rb.isNone
    disagree := c.disagree && ra.isSome && rb.isSome
    temp := (higher ra rb).getD c.temp }

/-- Whether a pair has no reading. -/
def CoolPair.dead (c : CoolPair) : Bool := c.aFail && c.bFail

/-- The pair read as the inlet. -/
def Cool.inPair (c : Cool) : CoolPair := if c.reversed then c.outlet else c.inlet

/-- The pair read as the outlet. -/
def Cool.outPair (c : Cool) : CoolPair := if c.reversed then c.inlet else c.outlet

/-- Q in tenths of a litre per minute: none while both instruments have failed, or the switch is open with the meter failed. -/
def Cool.q (c : Cool) : Option Nat :=
  if !c.flowFail then some c.flow.natAbs
  else if c.switchFail || c.switchOpen then none
  else some 30

/-- A pair's newly failed sensors. -/
def CoolPair.newFails (old new : CoolPair) : Nat :=
  (if new.aFail && !old.aFail then 1 else 0) + (if new.bFail && !old.bFail then 1 else 0)

/-- Failures of a coolant pair counted and raised. -/
def State.pairFailed (s : State) (old new : CoolPair) : State :=
  let s1 := s.sensorsFailed 0xFF (old.newFails new) 0
  if new.dead && !old.dead then s1.event { code := 15 } else s1

/-- The coolant temperatures after a sample; INLET_RANGE reads 0 while the inlet has no reading. -/
def State.coolTemps (s : State) (t : CoolReadings) : State :=
  let i := s.cool.inlet.sample t.inA t.inB
  let o := s.cool.outlet.sample t.outA t.outB
  let s1 := { s with cool := { s.cool with inlet := i, outlet := o } }
  let s2 := { s1 with cool := { s1.cool with inletRange := s1.cool.inletRange && !s1.cool.inPair.dead } }
  (s2.pairFailed s.cool.inlet i).pairFailed s.cool.outlet o

/-! ### Flow lost (R510, R516) -/

/-- Flow lost: HALT in every meter, FAULT, a load and the traverses end. Nothing in air fall-back, or before boot step 2 is done. -/
def State.coolantLost (s : State) : State :=
  if s.core.st = .off || s.core.air || s.cool.lost || (s.core.st = .boot && s.boot.step = 2) then s
  else
    let s1 := { s with
      cool := { s.cool with lost := true, valve := 100 }
      parcels := s.parcels.map (fun (x : Nat × ParcelState) =>
        (x.1, { x.2 with meter := { x.2.meter with halt := true } })) }
    let s2 := s1.event { code := 18, status := stCoolant, severity := 2 }
    ((s2.loadFail stCoolant).stopTraverses (fun _ => true) stCoolant).enterFault stCoolant

/-- COOLANT_LOST. -/
def execCoolantLost (s : State) : Out := .next s.coolantLost

/-- The flow meter failed: FLOW_FAIL at its failure; an open or failed switch beside it is flow lost. -/
def State.meterFailed (s : State) : State :=
  let s1 := if s.cool.flowFail then s
    else ({ s with cool := { s.cool with flowFail := true } }).event { code := 19 }
  if s1.cool.q.isNone then s1.coolantLost else s1

/-- The flow switch failed: SWITCH_FAIL at its failure; a failed meter beside it is flow lost. -/
def State.switchFailed (s : State) : State :=
  let s1 := if s.cool.switchFail then s
    else ({ s with cool := { s.cool with switchFail := true, switchOpen := false } }).event { code := 20 }
  if s1.cool.q.isNone then s1.coolantLost else s1

/-- FLOW_FAIL: a rule of coolant flow, so nothing in air fall-back (R10). -/
def execFlowFail (s : State) : Out := .next (if s.core.st = .off || s.core.air then s else s.meterFailed)

/-- SWITCH_FAIL: nothing in air fall-back (R10). -/
def execSwitchFail (s : State) : Out := .next (if s.core.st = .off || s.core.air then s else s.switchFailed)

/-- The flow instruments after a sample: the switch, then the meter, which leaves its range above 60 L/min. -/
def State.flowRead (s : State) (f : FlowReadings) : State :=
  let s1 := match f.switch with
    | none => s.switchFailed
    | some closed => { s with cool := { s.cool with switchFail := false, switchOpen := !closed } }
  match f.meter with
  | none => s1.meterFailed
  | some x =>
    if x.natAbs > 600 then s1.meterFailed else { s1 with cool := { s1.cool with flow := x, flowFail := false } }

/-! ### S_flow (R511, R514, R515, R520) -/

/-- S_flow and BELOW_MIN after an update at power `p` watts and flow `q` tenths of a litre per minute: P_allow is 83.6 W for each
tenth. -/
def flowStep (sc : Nat) (below : Bool) (p q : Nat) : Nat × Bool :=
  if 10 * p > 836 * q then (min 256 (sc * (836 * q) / (10 * p)), true)
  else
    let n := if 1000 * p < 97 * (836 * q) then min 256 (sc + 4) else sc
    (n, below && !(n == 256))

/-- The valve's stroke: 100 while it stands fully open, 0 in air fall-back; otherwise what the controller commands is free. -/
def State.stroke (s : State) : State :=
  if s.core.air then { s with cool := { s.cool with valve := 0 } }
  else if s.cool.lost || s.cool.valveSat then { s with cool := { s.cool with valve := 100 } }
  else { s with free := s.free + 1, cool := { s.cool with valve := (Config.valveStroke s.free).val } }

/-- S_flow against the flow allowance; it holds while Q has no value. -/
def State.flowAllow (s : State) : State :=
  match s.cool.q with
  | none => s
  | some q =>
    let r := flowStep s.cool.sFlow s.cool.belowMin s.pwr.p1ms q
    let s1 := { s with cool := { s.cool with
      sFlow := r.1
      belowMin := r.2
      low80 := s.cool.low80 && 100 * q ≤ 85 * s.cool.setpoint } }
    if r.2 && !s.cool.belowMin then s1.event { code := 17, severity := 1 } else s1

/-- FLOW_UPDATE. -/
def execFlowUpdate (f : FlowReadings) (t : CoolReadings) (s : State) : Out :=
  .next (if s.core.st = .off then s
    else
      let s1 := s.coolTemps t
      let s2 := if s.core.air then { s1 with cool := { s1.cool with flow := (f.meter.getD s1.cool.flow) } } else s1.flowRead f
      (if s.core.air then s2 else s2.flowAllow).stroke)

/-- FLOW_NOTICE: Q below 80 % of SETPOINT for 1 s. -/
def execFlowNotice (s : State) : Out :=
  .next (
    if s.core.st = .off || s.core.air || s.cool.low80 || !s.cool.q.any (fun q => decide (10 * q < 8 * s.cool.setpoint)) then s
    else ({ s with cool := { s.cool with low80 := true } }).event { code := 16 })

/-- COOLANT_TRIP: of the districts with power the one with the highest T_max, ties to the lower number. -/
def State.hottest (s : State) : Option Nat :=
  ((List.range 60).filter (fun d => (s.dist d).st ≠ .dark && (s.dist d).st ≠ .tripped)).foldl (fun (a : Option Nat) d =>
    match a with
    | none => some d
    | some e => if (s.dist e).tMax < (s.dist d).tMax then some d else some e) none

/-- COOLANT_TRIP. -/
def execCoolantTrip (s : State) : Out :=
  .next (if !s.cool.lost then s
    else match s.hottest with
      | none => s
      | some d => s.tripAll d stCoolant 18)

/-- FLOW_RETURN: flow has returned; FAULT and HALT stay until the host commands STANDBY. -/
def execFlowReturn (s : State) : Out :=
  .next (if s.cool.q.isNone then s else { s with cool := { s.cool with lost := false } })

/-! ### Reversed hoses, inlet, leak, valve (R511 to R513, R517) -/

/-- REVERSED_FLOW: nothing in air fall-back (R10). -/
def execReversedFlow (s : State) : Out :=
  .next (if s.core.st = .off || s.core.air || s.cool.reversed || s.cool.flowFail then s
    else ({ s with cool := { s.cool with reversed := true } }).event { code := 21, status := stReversed, severity := 1 })

/-- REVERSED_CLEAR. -/
def execReversedClear (s : State) : Out :=
  .next (if s.cool.flowFail then s else { s with cool := { s.cool with reversed := false } })

/-- INLET_RANGE: the inlet has been outside 17 °C to 40 °C for 10 s, or is inside again; not judged without a reading. -/
def execInletRange (outside : Bool) (s : State) : Out :=
  .next (if s.core.st = .off || s.cool.inPair.dead then s
    else
      let s1 := { s with cool := { s.cool with inletRange := outside } }
      if outside && !s.cool.inletRange then s1.event { code := 23 } else s1)

/-- LEAK: a wet rope, or an open one. -/
def execLeak (open_ : Bool) (s : State) : Out :=
  .next (if s.core.st = .off then s
    else if open_ then { s with cool := { s.cool with leakFail := true } }
    else if s.cool.leak then s
    else ({ s with cool := { s.cool with leak := true } }).event { code := 22, severity := 1 })

/-- VALVE_SAT: the valve stands fully open and Q has stayed below 95 % of SETPOINT for 2 s, or no longer does. -/
def execValveSat (saturated : Bool) (s : State) : Out :=
  .next (if s.core.st = .off || s.core.air then s
    else ({ s with cool := { s.cool with valveSat := saturated } }).stroke)

/-- SET_VALVE. -/
def execSetValve (m : MgmtHdr) (setpoint port : BitVec 16) (dest : BitVec 128) (s : State) : Out :=
  .next (s.hostCmd
    (cmdFor (.setValve m setpoint port dest)) (fun t =>
    checked (100 ≤ setpoint.toNat && setpoint.toNat ≤ 400) (t.inState afterBoot) (fun u =>
      .ok ({ u with cool := { u.cool with setpoint := setpoint.toNat, dest := dest, destPort := port.toNat } }).stroke) t))

/-! ### Forecast (R518, R519) -/

/-- What a parcel counts in P_hint, in microwatts before losses: the larger of HELD and FORECAST, times V. -/
def ParcelState.hintLoad (ps : ParcelState) : Nat :=
  max ps.heldMa (10 * ps.meter.forecast) * codeMv ps.reg.vset

/-- P_hint in watts, rounded down, with `edge` watts measured at the edge rail. -/
def State.hintPower (s : State) (edge : Nat) : Nat :=
  let load := ((s.parcels.filter (fun x => x.2.reg.on)).map (fun x => x.2.hintLoad)).sum
  let ds := ((List.range 60).filter (fun d => forwards (s.dist d).st)).length
  (1000 * load + 9000000000 * ds) / 855000000 + edge

/-- FORECAST_COMPUTE: `avg1s` is the mean input power over the last second. -/
def execForecastCompute (avg1s rowsWaiting rowsRun edge : Nat) (s : State) : Out :=
  .next (if s.core.epoch = 0 then s
    else
      let p100 := min s.capEff (max s.pwr.p1ms (s.hintPower edge))
      { s with cool := { s.cool with
        p100 := p100
        p1s := min s.capEff (max p100 (avg1s * rowsWaiting / max 1 rowsRun)) } })

/-- A pair's field in the message and in ENG.COOLANT: 0x8000 without a reading. -/
def CoolPair.field (c : CoolPair) : Nat := if c.dead then 0x8000 else (BitVec.ofInt 16 c.temp).toNat

/-- The 64 bytes of a forecast message. -/
def State.forecastBytes (s : State) : List Byte :=
  let c := s.cool
  let flag (b : Bool) (k : Nat) : Nat := if b then 2 ^ k else 0
  let w (n : Nat) : List Byte := leBytes (min 65535 n) 2
  let b := [0x4C, 0x57, 0x33, 0x46, 0x43, 0x41, 0x53, 0x54] ++ leBytes s.fab.engineId 2 ++
    leBytes (flag c.lost 0 + flag c.reversed 1 + flag c.belowMin 2 + flag c.leak 3 + flag s.core.air 4 + flag c.low80 5) 2 ++
    leBytes c.seq 4 ++ leBytes s.time.ns 8 ++ w s.pwr.p1ms ++ w c.p100 ++ w c.p1s ++ w s.capEff ++
    leBytes (BitVec.ofInt 16 c.flow).toNat 2 ++ leBytes c.setpoint 2 ++ leBytes c.inPair.field 2 ++
    leBytes c.outPair.field 2 ++ leBytes 0 20
  b ++ leBytes (crc32c b) 4

/-- FORECAST_MESSAGE: sent while DEST is set; SEQ counts the messages, this one included (log 51). -/
def execForecastMessage (s : State) : Out :=
  .next (if s.core.st = .off || (s.cool.dest = 0 && s.cool.destPort = 0) then s
    else
      let s1 := { s with cool := { s.cool with seq := (s.cool.seq + 1) % 2 ^ 32 } }
      s1.emit (.forecast s1.cool.dest s1.cool.destPort s1.forecastBytes))

end Sys2Proof.Machine
end

