-- ==== Sys2Proof/Machine/Memory.lean ====
section
/-!
DEFINITION. Lost stacks and lost data: the rows STACK_LOST, SCRUB and STACK_REBUILD_DONE; and PREFIX_RELEASE (12 R370 to R373;
13 R328, R421; 19 R564).
-/
namespace Sys2Proof.Machine

/-! ### A stack lost (R371 to R373) -/

/-- Whether some live district has a route to a stack. -/
def State.stackRouted (s : State) (k : StackId) : Bool :=
  (List.range 60).any (fun d => s.live d && detKind (Sparse.get 0 (s.tableOf d) (Endpoint.stack k).entry) ≠ 2)

/-- A load or store entry that waits on a lost request: its token completes, a data fault is reported. -/
def ParcelState.loseEntry (ps : ParcelState) (id : Nat) : ParcelState :=
  match (ps.lq ++ ps.sq).find? (fun (e : QueEntry) => e.id == id) with
  | none => ps
  | some e => (ps.endEntry e).dataFault .crc ps.swp.step.toNat

/-- The queue entry that a request of a parcel serves. -/
def Flit.entryOf (f : Flit) : Option (Pid × Nat) :=
  match f.src, f.payload with
  | .parcel p, .readReq (.ldq e) .. => some (p, e)
  | .parcel p, .write _ _ (.stq e) _ => some (p, e)
  | _, _ => none

/-- Whether a flit is a request to a stack. -/
def Flit.requests (f : Flit) (k : StackId) : Bool :=
  f.dst == .stack k && (match f.payload with | .readReq .. => true | .write .. => true | _ => false)

/-- The spill entry that a read request of a parcel reads back. -/
def Flit.spillOf (f : Flit) : Option (Pid × Nat) :=
  match f.src, f.payload with
  | .parcel p, .readReq (.spill e) .. => some (p, e)
  | _, _ => none

/-- A spill entry whose read was lost is to be read again. -/
def ParcelState.readAgain (ps : ParcelState) (e : Nat) : ParcelState :=
  { ps with lane := { ps.lane with spill := ps.lane.spill.map (fun (x : SpillEnt) =>
    if x.entry = e then { x with reading := false } else x) } }

/-- The requests that a lost stack held are gone. -/
def State.dropRequests (s : State) (k : StackId) : State :=
  let gone := s.net.flits.filter (fun (f : Flit) => f.requests k)
  let s1 := { s with net := { s.net with flits := s.net.flits.filter (fun (f : Flit) => !f.requests k) } }
  let s2 := (gone.filterMap Flit.entryOf).foldl (fun (t : State) x => t.modParcel x.1 (fun ps => ps.loseEntry x.2)) s1
  (gone.filterMap Flit.spillOf).foldl (fun (t : State) x => t.modParcel x.1 (fun ps => ps.readAgain x.2)) s2

/-- A stack declared lost: the step is replayed; with three lost the engine enters FAULT. -/
def State.stackLost (s : State) (k : StackId) (routeOnly : Bool) : State :=
  if s.core.st = .off || s.stk.lost.contains k.val then s
  else
    let s1 := (({ s with stk := { s.stk with
      lost := s.stk.lost ++ [k.val]
      routeLost := if routeOnly then s.stk.routeLost ++ [k.val] else s.stk.routeLost } }).dropRequests k).event
        { code := 47, severity := 1, detail := leBytes k.val 1 }
    if s1.stk.mode ≥ 3 then s1.enterFault stNoSpare else s1.spoil

/-- STACK_LOST; `routeOnly` says that nothing but its route is missing, which holds where no live district has one. -/
def execStackLost (k : StackId) (routeOnly : Bool) (s : State) : Out :=
  .next (if routeOnly && s.stackRouted k then s else s.stackLost k routeOnly)

/-- STACK_REBUILD_DONE: a stack lost for its route only, whose route is back, is rebuilt. -/
def execStackRebuildDone (k : StackId) (s : State) : Out :=
  .next (if !s.stk.routeLost.contains k.val || !s.stackRouted k then s
    else { s with stk := { s.stk with
      lost := s.stk.lost.filter (fun x => x ≠ k.val)
      routeLost := s.stk.routeLost.filter (fun x => x ≠ k.val) } })

/-! ### Lost data (R370, R564) -/

/-- An uncommitted step given up without an answer: its requests wait for another one. DESIGN CHOICE (log 52). -/
def State.reform (s : State) (num : Nat) : State :=
  let s1 := ((s.discardStep num).unlock (fun l => l.step == num)).endStep num
  { s1 with serve := { s1.serve with reqs := s1.serve.reqs.map (fun (r : Request) =>
    if r.inStep = some num then { r with inStep := none } else r) } }

/-- The slots whose KV data a record belongs to: those that share a page with its home there, or have their tables there. -/
def State.slotsAt (s : State) (a : Nat) : List Nat :=
  (s.parcels.flatMap (fun x =>
    (x.2.kv.pages.filter (fun (g : Page) => overlap (x.2.homeAt g.home) 55296 a 72)).flatMap Page.refs ++
    (x.2.kv.tables.filter (fun t => overlap (x.2.sumAddr t.2.2) (13 * 55296) a 72)).map Prod.fst)).eraseDups

/-- Lost KV data: its requests complete RESOURCE_REVOKED and its pinned prefixes are released. -/
def State.loseSlots (s : State) (ks : List Nat) : State :=
  let mine := s.serve.reqs.filter (fun (r : Request) => ks.contains r.slot)
  let steps := (s.serve.steps.filter (fun (st : Step) => !st.committed && mine.any (fun (r : Request) => r.inStep == some st.num))).map
    Step.num
  let s1 := steps.foldl (fun (t : State) n => t.reform n) s
  let s2 := mine.foldl (fun (t : State) r => t.complete r stRevoked 0 t.time.ns (Config.noStep t.serve.finished.length)) s1
  ({ s2 with serve := { s2.serve with prefixes := s2.serve.prefixes.map (fun (x : Prefix) =>
    if ks.contains x.slot then { x with dropping := true } else x) } }).dropPrefixes.drainEnd

/-- The base model's segment that a record of the segment store belongs to. -/
def State.segmentAt (s : State) (a : Nat) : Option Nat :=
  (s.model.segs.zipIdx.find? (fun x => x.1.addr ≠ 0 && overlap x.1.addr (72 * x.1.records) a 72)).map Prod.snd

/-- A lost record of a request ring: the requests whose entry or prompt it holds complete MALFORMED. -/
def State.loseRing (s : State) : State :=
  ({ s with serve := { s.serve with reqs := s.serve.reqs.map (fun (r : Request) =>
    if s.ringLost r.ring (0x10000 + 256 * r.entry) 256 || s.ringLost r.ring (0x100000 + r.promptOff) (4 * r.promptLen) then
      { r with end_ := some (r.end_.getD stMalformed) }
    else r) } }).completeWaiting (fun c => c == stMalformed)

/-- A record of the system region lost: fatal where it holds a log record that a takeover needs. -/
def State.loseSystem (s : State) (a : Nat) : State :=
  if !s.core.depValid && s.core.ckpt.any (fun k => decide (ckptAddr k ≤ a) && decide (a < ckptAddr k + 72)) then s.enterFault stOk else s

/-- A record that cannot be rebuilt: what follows from where it lies. -/
def State.loseRecord (s : State) (a : Nat) : State :=
  let seg := s.segmentAt a
  let s1 := { s with stk := { s.stk with lostRecs := if s.stk.lostRecs.contains a then s.stk.lostRecs else s.stk.lostRecs ++ [a] } }
  let s2 := s1.event { code := if seg.isSome then 46 else 45, severity := 1, detail := leBytes a 8 }
  match seg with
  | some i => { s2 with model := { s2.model with lostSegs := if s2.model.lostSegs.contains i then s2.model.lostSegs else s2.model.lostSegs ++ [i] } }
  | none =>
    let ks := s2.slotsAt a
    if !ks.isEmpty then s2.loseSlots ks
    else if a < 0x48000000 then s2.loseSystem a
    else if a < 0x69C00000 then s2.spoil
    else if 0x80000000 ≤ a && a < 0x480000000 then s2.loseRing
    else s2

/-- The stripes that a record touches. -/
def stripesOf (a : Nat) : List Nat := [stripeOf a, stripeOf (a + 71)].eraseDups

/-- A bad granule of stripe `st` in stack `k` corrected from the others of its stripe, and written anew. -/
def Stacks.correct (x : Stacks) (st k : Nat) : Stacks :=
  { x with
    bad := x.bad.filter (fun b => !(stripeOf b.1 == st && stackOf b.1 == k))
    located := satAdd 16 x.located 1 }

/-- The stripes of a record scrubbed, `bad` listing the bad granules of each by their stacks: one in a stripe is located and corrected with
all 24 at hand (R368). DEDUCED (log 53): a record whose content fails its CRC all the same fails again, and is lost. -/
def State.scrub (s : State) (a : Nat) (bad : List (Nat × List Nat)) : State :=
  if s.core.st = .off then s
  else if bad.any (fun x => x.2.length > 1 || (!x.2.isEmpty && !s.stk.lost.isEmpty)) then s.loseRecord a
  else
    let s1 := { s with stk := bad.foldl (fun (y : Stacks) x => x.2.foldl (fun z k => z.correct x.1 k) y) s.stk }
    if recordOk (s1.stackRead a 72) then s1 else s1.loseRecord a

/-- The stripe in which stack `k` holds a bad granule of a record's: the one whose granule of the record it holds, else the first. -/
def scrubStripe (a k : Nat) : Nat := if stackOf (a + 71) = k then stripeOf (a + 71) else stripeOf a

/-- SCRUB: the lead finds that the stacks `bad` hold bad granules of the record's stripes; more than one is none that it can locate. -/
def execScrub (addr : Nat) (bad : List StackId) (s : State) : Out :=
  .next (if addr + 72 ≤ stackSize then s.scrub addr (match (bad.map Fin.val).eraseDups with
      | [k] => [(scrubStripe addr k, [k])]
      | ks => [(stripeOf addr, ks)])
    else s)

/-- The bad granules that the stacks hold of a record's stripes. -/
def Stacks.badGranules (x : Stacks) (a : Nat) : List (Nat × List Nat) :=
  (stripesOf a).map (fun st => (st, ((x.bad.filter (fun b => stripeOf b.1 == st)).map (fun b => stackOf b.1)).eraseDups))

/-- A record that failed its CRC on the way into a parcel: the registry has the lead scrub its stripes (R370). -/
def State.scrubReported (s : State) (a : Nat) : State := s.scrub a (s.stk.badGranules a)

/-! ### PREFIX_RELEASE (R328, R421) -/

/-- PREFIX_RELEASE: the prefix goes at the next commit point. -/
def execPrefixRelease (m : MgmtHdr) (handle : Word) (s : State) : Out :=
  .next (s.hostCmd (cmdFor (.prefixRelease m handle)) (fun t =>
    checked true (t.inState [.loaded, .serving, .draining]) (fun u =>
      match u.serve.prefixes.find? (fun (x : Prefix) => x.handle == handle && !x.dropping) with
      | none => .say u stStale
      | some x => .ok { u with serve := { u.serve with prefixes := u.serve.prefixes.map (fun (y : Prefix) =>
          if y.slot = x.slot then { y with dropping := true } else y) } }) t))

end Sys2Proof.Machine
end

