-- ==== Sys2Proof/Machine/Security.lean ====
section
/-!
DEFINITION. Identity, owner, trust, quotes and the test access port: the rows OWNER_SET, MGMT_KEY, TRUST_SET, QUOTE, BYPASS, IDCODE,
SAMPLE_PRELOAD, EXTEST, INTEST, TAP_CHALLENGE, TAP_UNLOCK and TAP_RESET (20 R570 to R591; 21 R593, R603).
-/
namespace Sys2Proof.Machine

/-! ### Owner and management key (R574, R575, R577, R593) -/

/-- The owner key replaced: the management key goes with the old one. -/
def State.setOwner (s : State) (key : BitVec 512) : State :=
  { s with nv := { s.nv with owner := some key, mkey := none } }

/-- OWNER_SET: unclaimed, it is taken from a management port in STANDBY only; claimed, under the trailer of R576. -/
def execOwnerSet (m : MgmtHdr) (key : BitVec 512) (s : State) : Out :=
  .next (s.hostCmd (cmdFor (.ownerSet m key)) (fun t =>
    if t.nv.owner.isNone && !(m.onMgmt && t.inState [.standby]) then .say t stKey else .ok (t.setOwner key)))

/-- The management key and first counter that a plaintext gives, where everything R575 asks of it holds. -/
def State.openMgmtKey (s : State) (cipher : List Byte) (sig : BitVec 512) : Option (BitVec 256 × Nat) :=
  match s.nv.owner with
  | none => none
  | some o =>
    if s.sec.tamper || !sm2Verify (keyBytes o) cipher (leBytes sig.toNat 64) then none
    else match sm2Decrypt (Config.identityKey s.nv.serial).toNat cipher with
      | none => none
      | some b =>
        if b.length = 64 && entField b 32 8 = s.nv.serial.toNat && entZero b 48 16 && s.sec.lastCtr < entField b 40 8 then
          some (BitVec.ofNat 256 (entField b 0 32), entField b 40 8)
        else none

/-- A management key installed: counters and floor begin anew. -/
def State.installKey (s : State) (k : BitVec 256) (first : Nat) : State :=
  { s with
    nv := { s.nv with mkey := some k, floor := floorAbove (first - 1) }
    sec := { s.sec with lastCtr := first - 1, evCtr := 0 } }

/-- MGMT_KEY; the floor is written before the reply, and a failed write refuses the key (R593). -/
def execMgmtKey (m : MgmtHdr) (cipher : List Byte) (signature : BitVec 512) (s : State) : Out :=
  .next (s.hostCmd (cmdFor (.mgmtKey m cipher signature)) (fun t =>
    checked (cipher.length = 161) true (fun u =>
      match u.openMgmtKey cipher signature with
      | none => .say u stKey
      | some k =>
        if m.flashOk then .ok (u.installKey k.1 k.2)
        else .say { u with cal := { u.cal with flashFail := true } } stKey) t))

/-! ### Publishers (R578, R579) -/

/-- A publisher key added. DESIGN CHOICE (log 54): a key that is in the list already stays where it is. -/
def State.trustAdd (s : State) (key : BitVec 512) : CmdOut :=
  let l := (s.nv.trust.current).getD []
  let put (x : List (BitVec 512)) : CmdOut := .ok { s with nv := { s.nv with trust := s.nv.trust.write x } }
  if l.contains key then put l else if l.length ≥ 32 then .malformed else put (l ++ [key])

/-- A publisher key removed, and its generation entries with it. -/
def State.trustRemove (s : State) (id : List Byte) : CmdOut :=
  let l := (s.nv.trust.current).getD []
  if !l.any (fun k => pubId k == id) then .malformed
  else
    let gens := ((s.nv.gens.current).getD []).filter (fun (g : GenEntry) => leBytes g.pub.toNat 32 != id)
    .ok { s with nv := { s.nv with
      trust := s.nv.trust.write (l.filter (fun k => pubId k != id))
      gens := if s.nv.gens.current.isNone then s.nv.gens else s.nv.gens.write gens } }

/-- TRUST_SET. -/
def execTrustSet (m : MgmtHdr) (action : BitVec 8) (body : BitVec 512) (s : State) : Out :=
  .next (s.hostCmd (cmdFor (.trustSet m action body)) (fun t =>
    checked (action = 0 || (action = 1 && body.toNat < 2 ^ 256) || (action = 2 && body = 0)) (t.inState [.standby, .fault])
      (fun u =>
        if action = 0 then u.trustAdd body
        else if action = 1 then u.trustRemove (leBytes body.toNat 32)
        else .ok { u with nv := { u.nv with gens := u.nv.gens.write [] } }) t))

/-! ### Quotes (R588) -/

/-- Whether an adapter slot is loaded. -/
def State.adapterLoaded (s : State) (a : Nat) : Bool := (s.model.adapters.lookup a).any (fun (x : Adapter) => x.placed)

/-- The deed digest and tenant of an adapter slot; zeros for an empty one. -/
def State.adapterEntry (s : State) (a : Nat) : List Byte :=
  match s.model.adapters.lookup a with
  | some x => if x.placed then leBytes x.digest.toNat 32 ++ leBytes x.tenant 1 else leBytes 0 33
  | none => leBytes 0 33

/-- The flags of a quote. -/
def State.quoteFlags (s : State) : Nat :=
  let flag (b : Bool) (k : Nat) : Nat := if b then 2 ^ k else 0
  flag s.sec.debug 0 + flag s.nv.debugEver 1 + flag s.nv.owner.isSome 2 + flag s.core.air 3 + flag (s.nv.grade == .b48) 4 +
    flag s.nv.mkey.isSome 5

/-- The 256 bytes of a quote's body. -/
def State.quoteBody (s : State) (challenge : BitVec 256) : List Byte :=
  [0x4C, 0x57, 0x33, 0x51, 0x55, 0x4F, 0x54, 0x45] ++ leBytes s.nv.serial.toNat 8 ++ leBytes challenge.toNat 32 ++
    leBytes s.time.ns 8 ++ leBytes s.fab.engineId 2 ++ leBytes s.core.st.code 1 ++ leBytes s.quoteFlags 1 ++
    leBytes s.core.epoch 4 ++ leBytes s.sec.svn 4 ++ leBytes s.nv.svnFuse 4 ++ sm3 (s.nv.header s.sec.slotB) ++
    (match s.nv.owner with | some k => pubId k | none => leBytes 0 32) ++
    sm3 (((s.nv.trust.current).getD []).flatMap keyBytes) ++
    (if s.model.loaded then leBytes s.model.digest.toNat 32 ++ leBytes s.model.generation 8 else leBytes 0 40) ++
    leBytes (((List.range 16).filter s.adapterLoaded).map (fun a => 2 ^ a)).sum 2 ++
    sm3 ((List.range 16).flatMap s.adapterEntry) ++ leBytes 0 14

/-- QUOTE: body, signature and, where asked for, the certificates; the random number of the signature is free. -/
def execQuote (m : MgmtHdr) (challenge : BitVec 256) (flags : BitVec 8) (s : State) : Out :=
  .next (s.hostCmd (cmdFor (.quote m challenge flags)) (fun t =>
    checked (flags.toNat ≤ 1) true (fun u =>
      if u.sec.tamper then .say u stKey
      else
        let b := u.quoteBody challenge
        .done { u with free := u.free + 1 }
          { status := stOk
            results := b ++ sm2Sign (Config.identityKey u.nv.serial).toNat (Config.signRandom u.free).toNat b ++
              (if flags = 1 then Config.identityCerts u.nv.serial else []) }) t))

/-! ### Test access port (R586, R587, R603) -/

/-- Bits on TDO. -/
def State.tdo (s : State) (bits : List Bool) : State := s.emit (.tdo bits)

/-- BYPASS: one bit shifted through. -/
def execBypass (tdi : Bool) (s : State) : Out :=
  .next (if s.core.st = .off then s
    else { s.tdo [s.tap.bypass] with tap := { s.tap with ir := .bypass, bypass := tdi } })

/-- IDCODE: the identification code leaves, least significant bit first. -/
def execIdcode (s : State) : Out :=
  .next (if s.core.st = .off then s
    else { s.tdo ((List.range 32).map (fun i => Config.idcode.getLsbD i)) with tap := { s.tap with ir := .idcode } })

/-- SAMPLE/PRELOAD: what the pins show leaves, and the boundary register is loaded. -/
def execSamplePreload (bits : List Bool) (s : State) : Out :=
  .next (if s.core.st = .off then s
    else { s.tdo ((List.range bits.length).map (fun i => Config.pin i s.free)) with
      free := s.free + 1
      tap := { s.tap with ir := .sample, boundary := bits } })

/-- An instruction that takes effect in STANDBY and FAULT only; elsewhere it selects the bypass register and is counted. -/
def State.tapTest (s : State) (ir : TapIr) : State :=
  if s.core.st = .off then s
  else if s.inState [.standby, .fault] then { s with tap := { s.tap with ir := ir } }
  else { s with
    tap := { s.tap with ir := .bypass }
    sec := { s.sec with jtagDeny := satAdd 32 s.sec.jtagDeny 1 } }

/-- EXTEST. -/
def execExtest (s : State) : Out := .next (s.tapTest .extest)

/-- INTEST. -/
def execIntest (s : State) : Out := .next (s.tapTest .intest)

/-- TAP_CHALLENGE: 32 random bytes, which are free, and the serial. -/
def execTapChallenge (s : State) : Out :=
  .next (if s.core.st = .off then s
    else
      let c := leBytes (Config.challenge s.free).toNat 32 ++ leBytes s.nv.serial.toNat 8
      { s.tdo (c.flatMap (fun b => (List.range 8).map (fun i => b.getLsbD i))) with
        free := s.free + 1
        sec := { s.sec with challenge := some c } })

/-- Whether an unlock verifies under the challenge that is out. -/
def State.unlockOk (s : State) (cert sig : List Byte) : Bool :=
  s.sec.challenge.any (fun c => (Config.debugKey cert).any (fun k => sm2Verify k c sig))

/-- A verified unlock: keys zeroed, FAULT with KEY_BAD, the fuse blown, DEBUG set. -/
def State.unlocked (s : State) : State :=
  let s1 := { s with
    stk := { s.stk with keys := [] }
    nv := { s.nv with mkey := none } }
  let s2 := s1.enterFault stKey
  { s2 with
    core := { s2.core with cause := stKey }
    nv := { s2.nv with debugEver := true }
    sec := { s2.sec with debug := true, challenge := none } }

/-- TAP_UNLOCK: a challenge is good for one attempt. -/
def execTapUnlock (cert sig : List Byte) (s : State) : Out :=
  .next (if s.core.st = .off then s
    else if s.unlockOk cert sig then s.unlocked
    else { s with sec := { s.sec with challenge := none, jtagDeny := satAdd 32 s.sec.jtagDeny 1 } })

/-- TAP_RESET: the TAP controller only. -/
def execTapReset (s : State) : Out := .next { s with tap := {} }

end Sys2Proof.Machine
end

