-- ==== Sys2Proof/Machine/Registers.lean ====
section
/-!
DEFINITION. The register windows: what each register reads, which fields clear when read, and the rows COUNTER_READ_CLEAR,
MISALIGNED_ACCESS, UNBACKED_ACCESS, REGISTER_WRITE, REG_READ and FIRMWARE_RC_SWEEP (01 R15 to R17, R41 to R43; 22 R605 to R612, R618;
the field maps of the other chapters).
-/
namespace Sys2Proof.Machine

/-! ### Words and fields -/

/-- A value in a field `w` bits wide whose lowest bit is `lo`. -/
def fld (w lo v : Nat) : Nat := v % 2 ^ w * 2 ^ lo

/-- A signed value in a field. -/
def sfld (w lo : Nat) (v : Int) : Nat := (BitVec.ofInt w v).toNat * 2 ^ lo

/-- A truth value in bit `k`. -/
def flag (k : Nat) (b : Bool) : Nat := if b then 2 ^ k else 0

/-- A mask of the numbers in a list. -/
def maskOf (l : List Nat) : Nat := (l.eraseDups.map (fun i => 2 ^ i)).sum

/-- Where a register lies: the engine block, a district window, a parcel window, with the offset there (R42, R607). -/
inductive RegPlace where
  | eng (o : Nat)
  | dst (d o : Nat)
  | pcl (p : Pid) (o : Nat)
deriving DecidableEq, Repr

/-- The place that an address names, if it lies in a register window. -/
def regPlace (a : Nat) : Option RegPlace :=
  if 0x200000000000 ≤ a && a < 0x200000010000 then some (.eng (a - 0x200000000000))
  else if 0x200001000000 ≤ a && a < 0x200001000000 + 60 * 0x100000 then
    let b := a - 0x200001000000
    let d := b / 0x100000
    let o := b % 0x100000
    if o < 0x10000 then some (.dst d o)
    else if o < 0xA0000 then some (.pcl (pidOf (144 * d + (o - 0x10000) / 0x1000)) (o % 0x1000))
    else none
  else none

/-! ### The engine block (R607) -/

/-- Layers that run streamed now other than as declared. -/
def State.streamedOther (s : State) : Nat :=
  (s.model.layers.filter (fun (l : LayerEnt) => !l.streamed && s.model.streamed.contains l.index)).length

/-- A byte for each of eight numbers. -/
def eightBytes (f : Nat → Nat) : Nat := ((List.range 8).map (fun i => fld 8 (8 * i) (f i))).sum

/-- Steps that this engine owns and has not committed. -/
def State.stepsOpen (s : State) : Nat :=
  (s.serve.steps.filter (fun (st : Step) => st.owner == s.model.ordinal && !st.committed)).length

/-- Every physical parcel. -/
def allPids : List Pid := (List.range 8640).map pidOf

/-- What an engine register reads; none where the offset is reserved. -/
def State.engReg (s : State) (o : Nat) : Option Nat :=
  match o with
  | 0x0008 => some (fld 8 32 s.nv.stepping + fld 8 24 4 + fld 8 16 (56 - s.nv.grade.distAddr) + fld 8 8 s.nv.grade.distAddr +
      flag 1 s.core.air + flag 0 (s.nv.grade == .b48))
  | 0x0010 => some (fld 8 32 (if s.core.st = .fault then s.core.cause else 0) + fld 3 0 s.core.st.code)
  | 0x0018 => some (fld 32 16 s.core.epoch + flag 15 s.core.depValid + fld 6 8 s.core.deputy + fld 6 0 s.core.registry)
  | 0x0020 => some s.nv.fused.toNat
  | 0x0300 => some (eightBytes (fun i => Sparse.get 0 s.net.ease i))
  | 0x0308 => some (eightBytes (fun i => Sparse.get 0 s.net.ease (8 + i)))
  | 0x0310 => some (fld 16 48 s.net.maxG + fld 16 32 ((s.net.plan.filter PlanFlow.demoted).length) + fld 16 16 s.net.maxSlip +
      fld 8 8 (if s.core.epoch = 0 then 0 else s.net.holes.length + 4) + fld 8 0 s.net.unreach)
  | 0x0400 => some (fld 16 48 (maskOf ((List.range 16).filter s.adapterLoaded)) + fld 4 40 s.load.phase +
      fld 8 32 s.load.lastStatus + fld 32 0 s.load.segDone)
  | 0x0408 => some (fld 32 32 s.load.lotsDone + fld 16 16 s.load.lotsSpared + fld 16 0 s.streamedOther)
  | 0x0500 => some (fld 2 56 s.stk.mode +
      fld 24 24 (maskOf (s.stk.routeLost.filter (fun k => decide (k < 24) && s.stackRouted ⟨k % 24, Nat.mod_lt _ (by decide)⟩))) +
      fld 24 0 (maskOf s.stk.lost))
  | 0x0508 => some (fld 32 32 s.stk.recon + fld 16 16 s.stk.located + fld 16 0 s.stk.erased)
  | 0x0600 => some (fld 16 48 s.stepsOpen + fld 16 32 s.serve.reqs.length + fld 16 16 s.serve.prefixes.length +
      fld 16 0 (if s.model.loaded then (s.ownSlots.filter (fun k => !(s.slot k).used)).length else 0))
  | 0x0608 => some (fld 32 32 s.serve.illegal + fld 32 0 s.serve.replays)
  | 0x0610 => some (fld 32 32 s.serve.tokens + fld 16 16 s.serve.cancelIgnored + fld 16 0 s.serve.refused)
  | 0x0700 => some (flag 63 s.fab.ok + fld 3 32 s.fab.prio + fld 8 24 s.fab.domain + fld 1 16 s.fab.encap +
      fld 14 0 s.fab.engineId)
  | 0x0708 => some (fld 64 0 s.time.ns)
  | 0x0710 => some (sfld 32 32 (clampTo (-2147483648) 2147483647 s.time.offset) + fld 8 8 s.time.srcPort + flag 0 s.time.sync)
  | 0x0718 => some (fld 32 32 s.fab.retx + fld 32 0 s.fab.dupDrop)
  | 0x0720 => some (fld 32 32 s.fab.badHdr + fld 16 16 s.fab.linkDown + fld 16 0 s.fab.unreach)
  | 0x0800 => some (fld 16 32 (if s.core.st = .off then s.pwr.cap else s.capEff) + fld 9 16 s.pwr.sCap + fld 16 0 s.pwr.cap)
  | 0x0808 => some (fld 64 0 (s.pwr.energy / 1000))
  | 0x0810 => some (fld 16 48 s.pwr.p1ms + fld 16 32 s.pwr.pmax + fld 16 16 s.pwr.vin + fld 16 0 s.pwr.iin)
  | 0x0818 => some (fld 16 48 s.pwr.capSteps + fld 16 32 s.pwr.fastLimit + fld 16 16 s.pwr.busyPower + fld 16 0 s.pwr.phaseLost)
  | 0x0900 => some (fld 16 48 s.clk.refSwitch + fld 6 8 s.clk.anchor + flag 4 s.clk.lock + flag 3 s.clk.ref1Ok +
      flag 2 s.clk.ref0Ok + fld 2 0 s.clk.sel)
  | 0x0A00 => some (sfld 16 48 s.cool.flow + fld 16 32 s.cool.setpoint + fld 16 16 s.cool.inPair.field +
      fld 16 0 s.cool.outPair.field)
  | 0x0A08 => some (fld 9 48 s.cool.sFlow + fld 8 40 s.cool.valve + flag 15 s.cool.lost + flag 14 s.cool.reversed +
      flag 13 s.cool.belowMin + flag 12 s.cool.low80 + flag 11 s.cool.leak + flag 10 s.cool.leakFail + flag 9 s.cool.valveSat +
      flag 8 s.cool.switchOpen + flag 7 s.cool.switchFail + flag 6 s.cool.flowFail + flag 5 s.cool.outlet.bFail +
      flag 4 s.cool.outlet.aFail + flag 3 s.cool.inlet.bFail + flag 2 s.cool.inlet.aFail + flag 1 s.cool.inletRange +
      flag 0 s.core.air)
  | 0x0A10 => some (fld 16 48 s.cool.p100 + fld 16 32 s.cool.p1s + fld 32 0 s.cool.seq)
  | 0x0A18 => some (fld 16 48 s.cool.notices + fld 16 32 s.cool.thrSteps + fld 16 16 s.cool.disagree + fld 16 0 s.cool.sensFail)
  | 0x0B00 => some (fld 16 48 s.cal.traverses + fld 16 32 s.cal.travFail + fld 16 16 s.cal.residDue + fld 8 8 s.cal.calBad +
      flag 3 s.cal.flashFail + flag 2 (s.dists.any (fun x => x.2.benchBad)) + flag 0 (!s.cal.active.isEmpty))
  | 0x0C00 => some (fld 16 48 ((s.parcels.filter (fun x => x.2.health.bollard)).length) + fld 16 32 s.recov.covered.length +
      fld 16 16 (if s.core.epoch = 0 then 0 else (allPids.filter s.isSpare).length) +
      fld 8 8 ((s.dists.filter (fun x => x.2.st == .spare)).length) + flag 0 (!s.recov.unhosted.isEmpty))
  | 0x0C08 => some (fld 32 32 (s.recov.count + 2 ^ 32 - 1) + fld 16 16 s.recov.dropped)
  | 0x0C10 => some (fld 16 48 s.recov.evacuations + fld 16 32 s.recov.swaps + fld 16 16 s.recov.wardensLost +
      fld 16 0 s.recov.maxResume)
  | 0x0D00 => some (fld 8 56 s.nv.svnFuse + fld 8 48 s.sec.svn + flag 7 s.nv.pendingSlot.isSome + flag 6 s.sec.slotB +
      flag 5 s.nv.mkey.isSome + flag 4 s.nv.owner.isSome + flag 3 s.nv.debugEver + flag 2 s.sec.debug + flag 1 s.sec.tamper)
  | 0x0D08 => some s.nv.serial.toNat
  | 0x0D10 => some (fld 32 32 s.sec.authFail + fld 32 0 s.sec.jtagDeny)
  | 0x0E00 => some (fld 16 48 s.boot.toStandby + fld 8 40 s.boot.cause + fld 4 36 s.boot.step + flag 33 s.boot.warm +
      flag 32 s.boot.fallback + fld 16 16 s.boot.warmResets)
  | 0x0E08 => some (maskOf (s.boot.announced.filter (fun d => d < 60)))
  | _ =>
    if o % 8 ≠ 0 then none
    else if 0x0780 ≤ o && o < 0x0800 then
      let x := s.port ((o - 0x0780) / 8)
      some (fld 8 48 x.linkUp.toNat + fld 8 40 x.pol.toNat + fld 8 32 x.laneBad.toNat + fld 4 0 x.mode)
    else if 0x0B80 ≤ o && o < 0x0C00 then
      some (eightBytes (fun i => (Sparse.get 0 (s.port ((o - 0x0B80) / 8)).eyes i).toNat))
    else none

/-! ### District windows (R609) -/

/-- A site's field of DST.TEMP (R522). -/
def Site.field (x : Site) : Nat := flag 15 x.disagree + flag 14 x.aFail + flag 13 x.bFail + sfld 13 0 x.temp

/-- What a register of district `d` reads. -/
def State.dstReg (s : State) (d o : Nat) : Option Nat :=
  let x := s.dist d
  match o with
  | 0x00 => some (fld 8 56 (if x.st = .tripped then x.cause else 0) + fld 4 36 (if x.busy then x.target.code else 0) +
      flag 35 x.busy + fld 2 32 x.mode + fld 3 0 x.st.code)
  | 0x08 => some (fld 16 48 x.peak + fld 16 32 x.iNow +
      fld 16 16 (if x.st.domainOff then 0 else feederBudget (s.loadOf (s.poweredPids d) x.mode)) + fld 8 0 x.trips)
  | 0x10 => some (fld 16 32 x.worst + fld 16 0 x.suspect.toNat)
  | 0x20 => some (sfld 16 48 x.phaseErr + fld 4 4 x.mask + flag 2 x.aligned + flag 1 x.nodeFail + flag 0 x.nodeLock)
  | 0x28 => some (((List.range 4).map (fun k => fld 16 (16 * k) (Sparse.get ({} : Site) x.sites k).field)).sum)
  | 0x30 => some (fld 9 48 x.sTherm + sfld 16 32 x.tMax + sfld 16 16 x.tSite + flag 1 (decide (x.sTherm < 256)) + flag 0 x.notice)
  | 0x40 => some (fld 6 56 (if x.live then (s.watchers d).headD 63 else 63) + fld 6 50 x.proxyBy + fld 6 44 x.proxyFor1 +
      fld 6 38 x.proxyFor0 + flag 1 x.retired + flag 0 x.live)
  | 0x48 => some (fld 32 32 x.staleEpoch + fld 32 0 x.badSource)
  | _ =>
    if 0x8000 ≤ o && o < 0x8330 && o % 8 = 0 then some (Sparse.get 0 x.detour ((o - 0x8000) / 8)).toNat else none

/-! ### Parcel windows (R611) -/

/-- What a register of a lot entry reads, by its number in the entry (R78, R107, R108). An LMV runs whole in one step, so that
BUSY reads 0 between commands. -/
def ParcelState.lotReg (ps : ParcelState) (l r : Nat) : Nat :=
  let x := ps.lot l
  match r with
  | 0 => fld 16 32 x.lastPhases + fld 5 16 (remapUsed x.colRemap) + fld 5 8 (remapUsed x.rowRemap) + flag 4 x.stale +
      flag 3 x.flag + flag 2 (ps.mapped l) + flag 1 (!x.lotIdle)
  | 1 => (Sparse.get 0 x.rowRemap 0).toNat
  | 2 => (Sparse.get 0 x.rowRemap 1).toNat
  | 3 => (Sparse.get 0 x.rowRemap 2).toNat
  | 4 => (Sparse.get 0 x.rowRemap 3).toNat
  | 5 => (Sparse.get 0 x.colRemap 0).toNat
  | 6 => (Sparse.get 0 x.colRemap 1).toNat
  | 7 => (Sparse.get 0 x.colRemap 2).toNat
  | 8 => (Sparse.get 0 x.colRemap 3).toNat
  | 9 => fld 32 32 x.lmvDone + fld 32 0 x.lmvSkip
  | 10 => fld 32 32 x.phases + fld 32 0 x.planesSkipped
  | 11 => fld 32 32 x.halvings + fld 32 0 x.clamps
  | 12 => fld 13 32 x.cp.outliers + fld 5 24 x.cp.auditLog2 + fld 8 16 x.cp.flagLimit + fld 2 8 x.cp.driftMode +
      flag 7 x.cp.checkEn + fld 6 0 x.cp.thresh
  | 13 => fld 32 32 x.checkFail + fld 32 0 x.rereads
  | 14 => fld 32 32 x.checkSkip + fld 16 16 x.driftUpd + fld 16 0 x.persist
  | _ => fld 16 48 x.resid + fld 16 32 x.audits + fld 8 8 x.driftX.toNat +
      maskOf ((List.range 8).filter (fun j => ps.cbNat l j 1 == 0xFF))

/-- The frames that hold pages, and those that hold open ones (R330). -/
def KvState.hotFrames (k : KvState) (open_ : Bool) : Nat :=
  ((k.pages.filter (fun (g : Page) => !open_ || !g.sealed)).filterMap Page.frame).eraseDups.length

/-- Whether a DMM in wide reference mode runs. -/
def DmeState.wide (x : DmeState) : Bool :=
  match x.running.map (fun (f : Fetched) => f.work.op) with
  | some (.dmm o ..) => dmmWide o
  | _ => false

/-- A register of stack window `w` (R374). -/
def Window.reg (w : Window) (r : Nat) : Nat :=
  match r with
  | 0 => flag 63 w.r + flag 62 w.w + fld 5 57 w.key + fld 9 48 w.share + fld 41 0 w.base
  | 1 => fld 41 0 w.length
  | _ => fld 29 20 w.segLen + fld 20 0 w.first

/-- What a register of parcel `p` reads. -/
def State.pclReg (s : State) (p : Pid) (o : Nat) : Option Nat :=
  let ps := s.parcel p
  let m := ps.meter
  let h := ps.health
  match o with
  | 0x000 => some (fld 9 40 m.scale + fld 9 16 m.eff + fld 9 0 m.ration)
  | 0x008 => some (flag 63 m.halt + flag 62 m.guard + flag 61 m.surp + fld 2 59 m.modeApplied + fld 12 32 m.windowI +
      fld 12 16 ps.heldMa + fld 9 0 m.forecast)
  | 0x010 => some (fld 32 32 m.guardStall + fld 32 0 m.surplusWin)
  | 0x018 => some (fld 6 48 ps.reg.vset + fld 12 36 ps.reg.iout + fld 5 8 ps.reg.phOk.toNat + flag 3 ps.reg.ilim +
      flag 2 ps.reg.ctrlFail + flag 1 ps.reg.ramp + flag 0 ps.reg.on)
  | 0x020 => some (flag 16 h.tempFail + sfld 16 0 h.temp)
  | 0x028 => some (fld 18 46 h.lotsRetired.toNat + fld 8 38 ((ps.lots.map (fun x => x.2.adc)).foldl max 0) + fld 6 18 h.vmin3 +
      fld 6 12 h.vmin4 + fld 6 6 h.vmin5 + fld 6 0 h.vmin8)
  | 0x030 => some (fld 16 32 h.leases + fld 16 16 h.fenceEvent.toNat + flag 2 h.cover +
      flag 1 (s.core.epoch ≠ 0 && s.isSpare p) + flag 0 h.bollard)
  | 0x200 => some ps.kv.cfg.toNat
  | 0x208 => some (fld 7 57 (ps.kv.hotFrames true) + fld 7 50 (ps.kv.hotFrames false) + fld 32 0 ps.kv.homes)
  | 0x210 => some (fld 32 32 ps.kv.rowsStaged + fld 32 0 ps.kv.rowsDiscarded)
  | 0x218 => some (fld 16 48 ps.kv.seals + fld 16 32 ps.kv.evicts + fld 16 16 ps.kv.promotes + fld 16 0 ps.kv.appendDrop)
  | 0x300 => some (fld 4 28 ps.rtr.half.toNat + fld 4 24 ps.rtr.dead.toNat + fld 5 8 ps.rtr.spareW + flag 0 ps.rtr.fenced)
  | 0x308 => some (fld 32 32 ps.rtr.flitsOut + fld 32 0 ps.rtr.agedWins)
  | 0x310 => some (fld 16 48 ps.rtr.detourDrop + fld 16 32 ps.rtr.planMiss + fld 32 0 ps.rtr.spilled)
  | 0x380 => some (eightBytes (fun i => (Sparse.get 0 ps.map i).toNat))
  | 0x388 => some (eightBytes (fun i => (Sparse.get 0 ps.map (8 + i)).toNat))
  | 0x390 => some (eightBytes (fun i => (Sparse.get 0 ps.mapStaged i).toNat))
  | 0x398 => some (eightBytes (fun i => (Sparse.get 0 ps.mapStaged (8 + i)).toNat))
  | 0x3A0 => some (flag 1 ps.mapBad + flag 0 ps.mapArm)
  | 0xD00 => some (fld 16 32 ps.dme.lease + fld 5 16 ((ps.dme.opq.map OpVec.slots).sum) + fld 5 8 ps.dme.jobs.length +
      flag 3 ps.dme.exc + flag 2 ps.dme.wide + flag 1 ps.dme.grid + flag 0 ps.dme.running.isSome)
  | 0xD08 => some (fld 32 32 ps.dme.dmmDone + fld 16 16 ps.dme.dmgDone + fld 16 0 ps.dme.cjDone)
  | 0xD10 => some (fld 32 32 ps.dme.active + fld 16 16 ps.dme.opqStall + fld 16 0 ps.dme.tileStall)
  | 0xF00 => some (fld 7 48 ps.swp.events.length + flag 3 ps.swp.fw + flag 2 ps.swp.exc + flag 1 ps.swp.stopped +
      flag 0 ps.swp.wait.isSome)
  | 0xF08 => some (fld 20 24 ps.swp.epc + fld 5 16 ps.swp.excLot + fld 4 12 ps.swp.excUnit + fld 4 8 ps.swp.excTag +
      fld 4 0 ps.swp.cause)
  | 0xF10 => some (fld 32 32 ps.swp.issued + fld 32 0 ps.swp.stallDep)
  | 0xF18 => some (fld 32 32 ps.swp.stallQueue + fld 32 0 ps.swp.stallMeter)
  | _ =>
    if o % 8 ≠ 0 then none
    else if 0x040 ≤ o && o < 0x060 then
      some (((List.range 4).map (fun j => fld 16 (16 * j) (ps.draw (4 * ((o - 0x040) / 8) + j)))).sum)
    else if 0x080 ≤ o && o < 0x200 then
      some ((Sparse.get ({} : Window) ps.win ((o - 0x080) / 24)).reg ((o - 0x080) % 24 / 8))
    else if 0x400 ≤ o && o < 0xD00 then some (ps.lotReg ((o - 0x400) / 0x80) ((o - 0x400) % 0x80 / 8))
    else if 0xE00 ≤ o && o < 0xE80 then
      let c := Sparse.get ({} : TagCtr) ps.tags ((o - 0xE00) / 8)
      some (fld 32 32 c.sat + fld 32 0 c.zero)
    else if 0xE80 ≤ o && o < 0xF00 then
      let c := Sparse.get ({} : TagCtr) ps.tags ((o - 0xE80) / 8)
      some (fld 32 32 c.invalid + fld 16 16 c.nanOut + fld 16 0 c.crcBad)
    else if 0xF80 ≤ o && o < 0x1000 then some (Sparse.get 0 ps.swp.param ((o - 0xF80) / 8)).toNat
    else none

/-- What the register at an address reads; none where nothing backs it: reserved offsets and the windows of fused districts (R43). -/
def State.regValue (s : State) (a : Nat) : Option Nat :=
  match regPlace a with
  | some (.eng o) => s.engReg o
  | some (.dst d o) => if s.nv.fused.getLsbD d then none else s.dstReg d o
  | some (.pcl p o) => if s.nv.fused.getLsbD p.d.val then none else s.pclReg p o
  | none => none

/-! ### Fields that clear when read -/

/-- A field that clears when read: lowest bit, width, and whether it is a peak (R606). -/
structure RcField where
  lo : Nat
  w : Nat
  peak : Bool := false
deriving DecidableEq, Repr

/-- Two counters of 32 bits. -/
def rc2 : List RcField := [{ lo := 32, w := 32 }, { lo := 0, w := 32 }]
/-- A counter of 32 bits and two of 16. -/
def rc3 : List RcField := [{ lo := 32, w := 32 }, { lo := 16, w := 16 }, { lo := 0, w := 16 }]
/-- Four counters of 16 bits. -/
def rc4 : List RcField := [{ lo := 48, w := 16 }, { lo := 32, w := 16 }, { lo := 16, w := 16 }, { lo := 0, w := 16 }]

/-- The RC fields of a register. -/
def rcFields : RegPlace → List RcField
  | .eng o =>
    match o with
    | 0x0508 => rc3
    | 0x0608 => rc2
    | 0x0610 => rc3
    | 0x0718 => rc2
    | 0x0720 => rc3
    | 0x0818 => rc4
    | 0x0900 => [{ lo := 48, w := 16 }]
    | 0x0A18 => rc4
    | 0x0B00 => [{ lo := 48, w := 16 }, { lo := 32, w := 16 }, { lo := 16, w := 16 }]
    | 0x0C08 => [{ lo := 16, w := 16 }]
    | 0x0C10 => [{ lo := 48, w := 16 }, { lo := 32, w := 16 }, { lo := 16, w := 16 }, { lo := 0, w := 16, peak := true }]
    | 0x0D10 => rc2
    | _ => []
  | .dst _ o =>
    match o with
    | 0x08 => [{ lo := 48, w := 16, peak := true }]
    | 0x48 => rc2
    | _ => []
  | .pcl _ o =>
    match o with
    | 0x010 => rc2
    | 0x210 => rc2
    | 0x218 => rc4
    | 0x308 => rc2
    | 0x310 => [{ lo := 48, w := 16 }, { lo := 32, w := 16 }, { lo := 0, w := 32 }]
    | 0xD08 => rc3
    | 0xD10 => rc3
    | 0xF10 => rc2
    | 0xF18 => rc2
    | _ =>
      if 0x400 ≤ o && o < 0xD00 then
        match (o - 0x400) % 0x80 / 8 with
        | 9 => rc2
        | 10 => rc2
        | 11 => rc2
        | 13 => rc2
        | 14 => rc3
        | _ => []
      else if 0xE00 ≤ o && o < 0xE80 then rc2
      else if 0xE80 ≤ o && o < 0xF00 then rc3
      else []

/-- The value of a field in a word. -/
def RcField.of (f : RcField) (v : Nat) : Nat := v / 2 ^ f.lo % 2 ^ f.w

/-- The RC fields of an engine register at 0. -/
def State.clearEng (s : State) (o : Nat) : State :=
  match o with
  | 0x0508 => { s with stk := { s.stk with recon := 0, located := 0, erased := 0 } }
  | 0x0608 => { s with serve := { s.serve with illegal := 0, replays := 0 } }
  | 0x0610 => { s with serve := { s.serve with tokens := 0, cancelIgnored := 0, refused := 0 } }
  | 0x0718 => { s with fab := { s.fab with retx := 0, dupDrop := 0 } }
  | 0x0720 => { s with fab := { s.fab with badHdr := 0, linkDown := 0, unreach := 0 } }
  | 0x0818 => { s with pwr := { s.pwr with capSteps := 0, fastLimit := 0, busyPower := 0, phaseLost := 0 } }
  | 0x0900 => { s with clk := { s.clk with refSwitch := 0 } }
  | 0x0A18 => { s with cool := { s.cool with notices := 0, thrSteps := 0, disagree := 0, sensFail := 0 } }
  | 0x0B00 => { s with cal := { s.cal with traverses := 0, travFail := 0, residDue := 0 } }
  | 0x0C08 => { s with recov := { s.recov with dropped := 0 } }
  | 0x0C10 => { s with recov := { s.recov with evacuations := 0, swaps := 0, wardensLost := 0, maxResume := 0 } }
  | 0x0D10 => { s with sec := { s.sec with authFail := 0, jtagDeny := 0 } }
  | _ => s

/-- The RC fields of a district register at 0. -/
def DistState.clearReg (x : DistState) (o : Nat) : DistState :=
  match o with
  | 0x08 => { x with peak := 0 }
  | 0x48 => { x with staleEpoch := 0, badSource := 0 }
  | _ => x

/-- The RC fields of a lot register at 0. -/
def LotState.clearReg (x : LotState) (r : Nat) : LotState :=
  match r with
  | 9 => { x with lmvDone := 0, lmvSkip := 0 }
  | 10 => { x with phases := 0, planesSkipped := 0 }
  | 11 => { x with halvings := 0, clamps := 0 }
  | 13 => { x with checkFail := 0, rereads := 0 }
  | 14 => { x with checkSkip := 0, driftUpd := 0, persist := 0 }
  | _ => x

/-- The RC fields of a parcel register at 0. -/
def ParcelState.clearReg (ps : ParcelState) (o : Nat) : ParcelState :=
  match o with
  | 0x010 => { ps with meter := { ps.meter with guardStall := 0, surplusWin := 0 } }
  | 0x210 => { ps with kv := { ps.kv with rowsStaged := 0, rowsDiscarded := 0 } }
  | 0x218 => { ps with kv := { ps.kv with seals := 0, evicts := 0, promotes := 0, appendDrop := 0 } }
  | 0x308 => { ps with rtr := { ps.rtr with flitsOut := 0, agedWins := 0 } }
  | 0x310 => { ps with rtr := { ps.rtr with detourDrop := 0, planMiss := 0, spilled := 0 } }
  | 0xD08 => { ps with dme := { ps.dme with dmmDone := 0, dmgDone := 0, cjDone := 0 } }
  | 0xD10 => { ps with dme := { ps.dme with active := 0, opqStall := 0, tileStall := 0 } }
  | 0xF10 => { ps with swp := { ps.swp with issued := 0, stallDep := 0 } }
  | 0xF18 => { ps with swp := { ps.swp with stallQueue := 0, stallMeter := 0 } }
  | _ =>
    if 0x400 ≤ o && o < 0xD00 then ps.modLot ((o - 0x400) / 0x80) (fun x => x.clearReg ((o - 0x400) % 0x80 / 8))
    else if 0xE00 ≤ o && o < 0xE80 then
      let k := (o - 0xE00) / 8
      { ps with tags := Sparse.put ps.tags k { Sparse.get {} ps.tags k with sat := 0, zero := 0 } }
    else if 0xE80 ≤ o && o < 0xF00 then
      let k := (o - 0xE80) / 8
      { ps with tags := Sparse.put ps.tags k { Sparse.get {} ps.tags k with invalid := 0, nanOut := 0, crcBad := 0 } }
    else ps

/-- The RC fields of a register at 0. -/
def State.clearReg (s : State) : RegPlace → State
  | .eng o => s.clearEng o
  | .dst d o => s.modDist d (fun x => x.clearReg o)
  | .pcl p o => s.modParcel p (fun ps => ps.clearReg o)

/-! ### Firmware reads and shadows (R79, R606) -/

/-- The shadow of field `i` of the register at an address. -/
def State.shadow (s : State) (a i : Nat) : Nat := Sparse.get 0 s.mgmt.shadows (8 * (a / 8) + i)

/-- A shadow set; one that is 0 is not listed. -/
def State.setShadow (s : State) (a i v : Nat) : State :=
  let k := 8 * (a / 8) + i
  { s with mgmt := { s.mgmt with
    shadows := if v = 0 then s.mgmt.shadows.filter (fun x => x.1 ≠ k) else Sparse.put s.mgmt.shadows k v } }

/-- A value combined with a shadow: a count is added, of a peak the larger stands. -/
def RcField.combine (f : RcField) (shadow v : Nat) : Nat := if f.peak then max shadow v else shadow + v

/-- A register read by firmware: its value, and the state with its RC fields cleared and combined into their shadows. A register
whose RC fields are all 0 is left as it is. -/
def State.firmwareRead (s : State) (a : Nat) : State × Nat :=
  match regPlace a, s.regValue a with
  | some pl, some v =>
    let fs := rcFields pl
    if fs.all (fun f => f.of v == 0) then (s, v)
    else
      (fs.zipIdx.foldl (fun (t : State) f => t.setShadow a f.2 (f.1.combine (t.shadow a f.2) (f.1.of v))) (s.clearReg pl), v)
  | _, _ => (s, 0)

/-- District and parcel that a log entry about an address names (R566). -/
def addrUnits (a : Nat) : Nat × Nat :=
  match regPlace a with
  | some (.dst d _) => (d, 0xFFFF)
  | some (.pcl p _) => (p.d.val, p.p.val)
  | _ => (0xFF, 0xFFFF)

/-- An access that is refused: MALFORMED goes into the fault log; a read gives 0 (R17, R43). -/
def State.badAccess (s : State) (a : Nat) (write : Bool) : State :=
  let s1 := s.malformed (addrUnits a).1 (addrUnits a).2
  if write then s1 else { s1 with regRead := 0 }

/-- Whether an address is backed: SRAM of a district that is fitted, the stack space, a register (R41, R43, R365). -/
def State.backed (s : State) (a : Nat) : Bool :=
  if a < stackSize then true
  else if 0x100000000000 ≤ a && a < 0x100000000000 + 60 * 0x80000000 then
    let b := a - 0x100000000000
    !s.nv.fused.getLsbD (b / 0x80000000) && b % 0x80000000 / 0x800000 < 144 && b % 0x800000 < 0x600000
  else (s.regValue (a / 8 * 8)).isSome

/-- COUNTER_READ_CLEAR: a register read by firmware. -/
def execCounterReadClear (addr : Nat) (s : State) : Out :=
  .next (if addr % 8 ≠ 0 || (s.regValue addr).isNone then s.badAccess addr false
    else
      let r := s.firmwareRead addr
      { r.1 with regRead := BitVec.ofNat 64 r.2 })

/-- MISALIGNED_ACCESS: a register access that is not 64 bits wide and aligned to 8 bytes. -/
def execMisalignedAccess (addr : Nat) (bytes : Nat) (write : Bool) (s : State) : Out :=
  .next (if (bytes = 8 && addr % 8 = 0) || (regPlace addr).isNone then s else s.badAccess addr write)

/-- UNBACKED_ACCESS. -/
def execUnbackedAccess (addr : Nat) (write : Bool) (s : State) : Out :=
  .next (if s.backed addr then s else s.badAccess addr write)

/-- REGISTER_WRITE: a write that no rule gives an effect is ignored. -/
def execRegisterWrite (_ : Nat) (_ : Word) (s : State) : Out := .next s

/-! ### FIRMWARE_RC_SWEEP (R79, R606) -/

/-- The registers of the engine block that have RC fields. -/
def engRcOffsets : List Nat :=
  [0x0508, 0x0608, 0x0610, 0x0718, 0x0720, 0x0818, 0x0900, 0x0A18, 0x0B00, 0x0C08, 0x0C10, 0x0D10]

/-- The registers of a parcel window that have RC fields. -/
def pclRcOffsets : List Nat :=
  [0x010, 0x210, 0x218, 0x308, 0x310, 0xD08, 0xD10, 0xF10, 0xF18] ++ (List.range 32).map (fun t => 0xE00 + 8 * t) ++
    (List.range 18).flatMap (fun l => [0x48, 0x50, 0x58, 0x68, 0x70].map (fun r => 0x400 + 0x80 * l + r))

/-- The address of a district's window. -/
def distBase (d : Nat) : Nat := 0x200001000000 + 0x100000 * d

/-- FIRMWARE_RC_SWEEP: every RC field of a district, or of the engine block, read into its shadow. Parcels that have never been
touched hold nothing but zeros. -/
def execFirmwareRcSweep (d : Option DistId) (s : State) : Out :=
  .next (match d with
    | none => engRcOffsets.foldl (fun (t : State) o => (t.firmwareRead (0x200000000000 + o)).1) s
    | some d =>
      let mine := (s.parcels.filter (fun x => x.1 / 144 == d.val)).map (fun x => x.1 % 144)
      let addrs := [0x08, 0x48].map (fun o => distBase d.val + o) ++
        mine.flatMap (fun p => pclRcOffsets.map (fun o => distBase d.val + 0x10000 + 0x1000 * p + o))
      addrs.foldl (fun (t : State) a => (t.firmwareRead a).1) s)

/-! ### REG_READ (R606, R618) -/

/-- Whether a run of `n` registers lies within the engine block or within one district window. -/
def runOk (a n : Nat) : Bool :=
  within a (8 * n) 0x200000000000 0x200000010000 ||
  (List.range 60).any (fun d => within a (8 * n) (distBase d) (distBase (d + 1)))

/-- What REG_READ returns for a register read now: RC fields combined with their shadows, a count at most its all-ones value. -/
def State.shown (s : State) (a v : Nat) : Nat :=
  match regPlace a with
  | none => 0
  | some pl => (rcFields pl).zipIdx.foldl (fun (w : Nat) f =>
      w - f.1.of v * 2 ^ f.1.lo + min (2 ^ f.1.w - 1) (f.1.combine (s.shadow a f.2) (f.1.of v)) * 2 ^ f.1.lo) v

/-- The shadows of a register zeroed. -/
def State.zeroShadows (s : State) (a : Nat) : State :=
  match regPlace a with
  | none => s
  | some pl => (rcFields pl).zipIdx.foldl (fun (t : State) f => t.setShadow a f.2 0) s

/-- One register of a run. -/
def State.regWord (s : State) (a : Nat) (zero : Bool) : State × Nat :=
  let w := s.shown a ((s.regValue a).getD 0)
  let r := s.firmwareRead a
  (if zero then r.1.zeroShadows a else r.1, w)

/-- The registers of a run in turn: the state and the bytes of the reply. -/
def State.regRun (s : State) (a : Nat) (zero : Bool) : Nat → State × List Byte
  | 0 => (s, [])
  | n + 1 =>
    let x := s.regWord a zero
    let r := State.regRun x.1 (a + 8) zero n
    (r.1, leBytes x.2 8 ++ r.2)

/-- REG_READ carried out. -/
def State.readRegs (s : State) (a n : Nat) (zero : Bool) : CmdOut :=
  let gap := (List.range n).find? (fun i => (s.regValue (a + 8 * i)).isNone)
  let r := s.regRun a zero n
  let s1 := match gap with
    | some i => r.1.malformed (addrUnits (a + 8 * i)).1 (addrUnits (a + 8 * i)).2
    | none => r.1
  .done s1 { status := stOk, results := r.2 }

/-- REG_READ. -/
def execRegRead (m : MgmtHdr) (addr : BitVec 64) (count : BitVec 16) (mode : BitVec 8) (s : State) : Out :=
  .next (s.hostCmd (cmdFor (.regRead m addr count mode)) (fun t =>
    checked (addr.toNat % 8 == 0 && decide (1 ≤ count.toNat) && decide (count.toNat ≤ 64) && decide (mode.toNat ≤ 1) &&
        runOk addr.toNat count.toNat) true
      (fun u => u.readRegs addr.toNat count.toNat (mode == 1)) t))

end Sys2Proof.Machine
end

