-- ==== Sys2Proof/Machine/Mgmt.lean ====
section
/-!
DEFINITION. Management messages as they arrive: fragments, reassembly, the command they spell; the rows MGMT, REASSEMBLY_TIMEOUT
and AVENUE_V1_MESSAGE (14 R439, R450; 20 R576; 22 R615 to R620).
-/
namespace Sys2Proof.Machine

/-! ### Reassembly (R615) -/

/-- The fragment header of a body, and the fragment. -/
structure Frag where
  xid : Word
  off : Nat
  total : Nat
  bytes : List Byte
deriving DecidableEq, Repr

/-- The transaction of a body, where it is long enough to carry one. -/
def fragXid (b : List Byte) : Option Word := if b.length < 8 then none else some (BitVec.ofNat 64 (entField b 0 8))

/-- The fragment of a body; none where the body is too short for its header or its FLEN, or TOTAL is outside 16 to 8,192. Bytes after
the fragment are ignored. -/
def fragOf (b : List Byte) : Option Frag :=
  if b.length < 16 then none
  else if b.length < 16 + entField b 10 2 || entField b 12 2 < 16 || entField b 12 2 > 8192 then none
  else some {
    xid := BitVec.ofNat 64 (entField b 0 8)
    off := entField b 8 2
    total := entField b 12 2
    bytes := (b.drop 16).take (entField b 10 2) }

/-- The message held under a transaction and source. -/
def State.held (s : State) (xid : Word) (src : Nat) : Option Reasm :=
  s.mgmt.reasm.find? (fun (x : Reasm) => x.xid == xid && x.src == src)

/-- A held message discarded. -/
def State.unhold (s : State) (xid : Word) (src : Nat) : State :=
  { s with mgmt := { s.mgmt with reasm := s.mgmt.reasm.filter (fun (x : Reasm) => !(x.xid == xid && x.src == src)) } }

/-- Byte `i` of a message that is being put together. DESIGN CHOICE (log 55): where fragments overlap, that of the last one to
arrive. -/
def Reasm.byteAt (x : Reasm) (i : Nat) : Option Byte :=
  ((x.parts.reverse).find? (fun p => decide (p.1 ≤ i) && decide (i < p.1 + p.2.length))).bind (fun p => p.2[i - p.1]?)

/-- The whole message, once every byte is there. -/
def Reasm.whole (x : Reasm) : Option (List Byte) :=
  let bs := (List.range x.total).filterMap x.byteAt
  if bs.length = x.total then some bs else none

/-! ### The command that a message spells (R576, R616, R617) -/

/-- The meaning of a host command's row; other rows have none here. -/
def runHost (i : Instr) (s : State) : State :=
  let o : Out := match i with
    | .engineSetState m t d => execEngineSetState m t d s
    | .districtSetState m d t => execDistrictSetState m d t s
    | .setClockMode m d c => execSetClockMode m d c s
    | .setRation m d p r => execSetRation m d p r s
    | .setCap m c => execSetCap m c s
    | .setValve m q p d => execSetValve m q p d s
    | .modelLoad m o => execModelLoad m o s
    | .modelUnload m k l f => execModelUnload m k l f s
    | .layerSetResidency m l r => execLayerSetResidency m l r s
    | .traverse m c d p l k => execTraverse m c d p l k s
    | .prefixRelease m h => execPrefixRelease m h s
    | .quote m c f => execQuote m c f s
    | .fabricSetConfig m o => execFabricSetConfig m o s
    | .ringBind m o => execRingBind m o s
    | .ownerSet m k => execOwnerSet m k s
    | .mgmtKey m c g => execMgmtKey m c g s
    | .trustSet m a b => execTrustSet m a b s
    | .firmwareUpdate m o l d => execFirmwareUpdate m o l d s
    | .engineReset m => execEngineReset m s
    | .regRead m a c k => execRegRead m a c k s
    | _ => .next s
  match o with
  | .next t => t
  | _ => s

/-- A complete message: a command of R617 is carried out; one that is laid out otherwise is checked under R576 and answered
MALFORMED; one whose length does not fit cannot be authenticated and is answered MALFORMED at once. -/
def State.command (s : State) (x : Reasm) (b : List Byte) (flash : Bool) : State :=
  let op := entField b 0 2
  let len := entField b 4 4
  let trailer := s.needsTrailer op
  let t := b.drop (16 + len)
  let hdr : MgmtHdr := {
    xid := x.xid
    src := x.src
    v1 := x.v1
    onMgmt := x.onMgmt
    ctr := if trailer then BitVec.ofNat 64 (entField t 0 8) else 0
    rsv := if trailer then BitVec.ofNat 64 (entField t 8 8) else 0
    tag := if trailer then BitVec.ofNat 256 (entField t 16 32) else 0
    flashOk := flash }
  let c : CmdIn := { cmdOf hdr op ((b.drop 16).take len) with raw := b.take (16 + len) }
  if !s.answers then s
  else if b.length ≠ 16 + len + (if trailer then 48 else 0) then
    s.reply { xid := x.xid, src := x.src, v1 := x.v1, onMgmt := x.onMgmt, ctr := none } op { status := stMalformed }
  else match hostCommand hdr op ((b.drop 16).take len) with
    | some i => if (cmdOf hdr op ((b.drop 16).take len)).raw = c.raw then runHost i s else s.hostCmd c (fun _ => .malformed)
    | none => s.hostCmd c (fun _ => .malformed)

/-- A body that has arrived on MGMT: the fragment joins its message, and a message that is whole is carried out. -/
def State.mgmtBody (s : State) (src : Nat) (v1 onMgmt : Bool) (b : List Byte) (flash : Bool) : State :=
  if !s.answers then s
  else match fragOf b with
    | none => (match fragXid b with
      | some k => s.unhold k src
      | none => s)
    | some f =>
      let old := s.held f.xid src
      if f.off + f.bytes.length > f.total || old.any (fun (x : Reasm) => x.total ≠ f.total) then s.unhold f.xid src
      else
        let x : Reasm := match old with
          | some x => { x with parts := x.parts ++ [(f.off, f.bytes)] }
          | none => {
              xid := f.xid
              src := src
              total := f.total
              v1 := v1
              onMgmt := onMgmt
              parts := [(f.off, f.bytes)] }
        match x.whole with
        | some m => (s.unhold f.xid src).command x m flash
        | none =>
          if old.isNone && s.mgmt.reasm.length ≥ 16 then s
          else
            let s1 := s.unhold f.xid src
            { s1 with mgmt := { s1.mgmt with reasm := s1.mgmt.reasm ++ [x] } }

/-! ### The rows -/

/-- MGMT: a fragment in an Avenue v2 message. -/
def execMgmt (m : AveIn) (src : Nat) (s : State) : Out :=
  .next (
    let a := s.aveTake 7 m
    if !a.2 then a.1 else a.1.mgmtBody src false m.onMgmt (payloadOf m) m.flashOk)

/-- REASSEMBLY_TIMEOUT. -/
def execReassemblyTimeout (xid : BitVec 64) (src : Nat) (s : State) : Out := .next (s.unhold xid src)

/-- Bytes 0 to 11 of a v1 header (R439). -/
def aveV1Head (m : AveV1In) : List Byte :=
  packFields [(1, 0x10 + m.typ.toNat), (1, m.rsv.toNat), (2, m.length.toNat), (2, m.srcE.toNat), (2, m.dstE.toNat),
    (4, m.seq.toNat)]

/-- Whether a v1 message is dropped and counted: another type, a header whose CRC fails, an engine ID that is none, a length
beyond 4,080 bytes or beyond the body. -/
def aveV1Bad (m : AveV1In) : Bool :=
  !(m.typ.toNat == 7 || m.typ.toNat == 8) || m.crc.toNat ≠ crc32c (aveV1Head m) || !engineIdOk m.srcE || !engineIdOk m.dstE ||
  m.length.toNat > 4080 || m.body.length < m.length.toNat

/-- AVENUE_V1_MESSAGE: MGMT and PROBE; a management port takes MGMT only. -/
def execAvenueV1Message (m : AveV1In) (s : State) : Out :=
  .next (
    if !m.onMgmt && !s.fab.ok then s
    else if aveV1Bad m then s.badHdr
    else if m.onMgmt && m.typ.toNat ≠ 7 then s
    else if m.dstE.toNat ≠ s.fab.engineId then s
    else if m.typ = 7 then s.mgmtBody m.src true m.onMgmt (m.body.take m.length.toNat) m.flashOk
    else if m.srcE = 0x3FFF then s else s.probed m.srcE.toNat m.seq.toNat)

end Sys2Proof.Machine
end

