-- ==== Sys2Proof/Machine/Replay.lean ====
section
/-!
DEFINITION. Faults of a step and its replay: the rows STEP and STEP_REPLAY (05 R151; 06 R200; 09 R294; 12 R370; 13 R404, R411; 19 R543,
R545, R557, R561, R564).
-/
namespace Sys2Proof.Machine

/-- What an engine does about the faults it knows of a step before it runs again: a parcel with a hardware fault is fenced (R200, R545;
34 is PARCEL_FENCED, for R567 has no code of its own), the stripes of a record that failed its CRC are scrubbed (R370). -/
def State.mend (s : State) (rs : List (Nat × Report)) : State :=
  rs.foldl (fun (t : State) r =>
    match r.2 with
    | .data (.record a) _ => t.scrubReported a
    | q => if hardFault q then t.fenceParcel (pidOf r.1) 34 else t) s

/-- The step without what the engine did for it, ready to run again; summaries that the fault lost are sent anew (R235, R313, R329). -/
def State.rerun (s : State) (num : Nat) (st : Step) : State :=
  ((s.discardStep num).modStep num (fun _ => st)).redueSummaries

/-- Whether a report says that the step needs data that is lost (R564). -/
def Report.isLost : Report → Bool
  | .data .lost _ => true
  | _ => false

/-- Whether a report of a record that failed its CRC names one that is lost now. -/
def State.nowLost (s : State) (r : Report) : Bool :=
  match r with
  | .data (.record a) _ => s.stk.lostRecs.contains a && (s.segmentAt a).isSome
  | _ => false

/-- An image fault repeated: it is logged, and the sweeper that raised it is reset at its next pass boundary (R200). -/
def State.imageFaultAgain (s : State) (f : Nat × Nat × Nat) : State :=
  (s.modParcel (pidOf f.1) (fun ps => { ps with swp := { ps.swp with lastImageFault := some f.2 } })).writeLog
    { code := 33, status := stMalformed, d := f.1 / 144, parcel := f.1 % 144 }

/-- What follows a fault of step `st` with the reports `rs`, which are taken and mended already. -/
def State.replayWith (s : State) (st : Step) (rs : List (Nat × Report)) : State :=
  let faults := rs.filterMap (fun r => (imageFault r.2).map (fun f => (r.1, f)))
  let again := faults.filter (fun f => st.image.contains f.2)
  if (s.stepOf st.num).isNone then s
  else if !again.isEmpty then (again.foldl (fun (t : State) f => t.imageFaultAgain f) s).failDecided st stMalformed
  else if rs.any (fun r => r.2.isLost || s.nowLost r.2) then s.failDecided st stRevoked
  else
    let st1 := st.again s.model.vocab.nvocab (if faults.isEmpty then st.image else faults.map Prod.snd)
    let s1 := (s.rerun st.num st1).sendStep st1
    ({ s1 with serve := { s1.serve with replays := satAdd 32 s1.serve.replays 1 } }).resumed

/-- STEP_REPLAY: the owner reissues a step after a fault. An image fault with the same cause and EPC as before completes the step's
requests MALFORMED (R200, R294). A step that needs lost data completes them RESOURCE_REVOKED (R564). DESIGN CHOICE (log 134): in a group of
several engines the row also stands for the report of another engine, which no message of R433 carries. -/
def State.stepReplay (s : State) (num : Nat) : State :=
  match s.stepOf num with
  | none => s
  | some st =>
    let rs := s.stepReports num
    if st.owner ≠ s.model.ordinal || st.committed || !(s.faulty st || s.model.nengine > 1) then s
    else (((s.takeReports num rs).dropLogits num).mend rs).replayWith st rs

/-- STEP_REPLAY. -/
def execStepReplay (step : BitVec 32) (s : State) : Out := .next (s.stepReplay step.toNat)

/-! ### STEP (R404, R411, R433) -/

/-- A step that its owner reissues: the engine mends what it knows, discards what it did, and takes the rows anew. -/
def State.reissued (s : State) (st : Step) (b : List Byte) : State :=
  let rs := s.stepReports st.num
  let st1 := st.again s.model.vocab.nvocab st.image
  ((((s.takeReports st.num rs).dropLogits st.num).mend rs).rerun st.num { st1 with
    rows := (rowsOf (b.drop 64)).take (entField b 12 4)
    need := entField b 12 4 }).resumed

/-- The step that the first message of a descriptor begins, its descriptor in place `d`. -/
def stepOfMessage (num d : Nat) (b : List Byte) : Step :=
  { num := num
    owner := entField b 4 4
    desc := d
    rows := (rowsOf (b.drop 64)).take (entField b 12 4)
    reqs := []
    lens := []
    need := entField b 12 4 }

/-- A STEP message: a new step, the rest of one whose descriptor is not whole, or a reissue, which discards what the engine did
for the step (R411). -/
def State.stepMessage (s : State) (m : AveIn) : State :=
  let a := s.aveTake 4 m
  if !a.2 then a.1
  else
    let t := a.1
    let num := m.hdr.aux.toNat
    let b := payloadOf m
    match t.stepOf num with
    | some st =>
      if st.rows.length < st.need then
        (t.modStep num (fun x => { x with rows := x.rows ++ (rowsOf b).take (x.need - x.rows.length) })).beginStep num
      else if st.owner = t.model.ordinal || st.committed then t
      else t.reissued st b
    | none =>
      match t.descFree with
      | none => t
      | some d =>
        let st := stepOfMessage num d b
        if st.owner = t.model.ordinal then t
        else ({ t with serve := { t.serve with steps := t.serve.steps ++ [st] } }).beginStep num

/-- STEP. -/
def execStep (m : AveIn) (s : State) : Out := .next (s.stepMessage m)

end Sys2Proof.Machine
end

