-- ==== Sys2Proof/Machine/Dispatch.lean ====
section
/-!
DEFINITION. What each command does to the state beside the queue: one arm for each constructor of `Instr`, each one
direct call of the command's meaning.
-/
namespace Sys2Proof.Machine

/-- The effect of one command (the rows of spec/opcode_table.json). -/
def exec (i : Instr) (s : State) : Host.Outcome State Fault Refusal :=
  match i with
  | .powerOn vin sealOk => Sys2Proof.Machine.execPowerOn vin sealOk s
  | .inputRemoved => Sys2Proof.Machine.execInputRemoved s
  | .overvoltage => Sys2Proof.Machine.execOvervoltage s
  | .undervolt vin => Sys2Proof.Machine.execUndervolt vin s
  | .reversedPolarity => Sys2Proof.Machine.execReversedPolarity s
  | .fastLimit iin => Sys2Proof.Machine.execFastLimit iin s
  | .strapChange air => Sys2Proof.Machine.execStrapChange air s
  | .bootFlowEstablished probeFail fwBad announced => Sys2Proof.Machine.execBootFlowEstablished probeFail fwBad announced s
  | .bootFlowTimeout => Sys2Proof.Machine.execBootFlowTimeout s
  | .electionWindowClose => Sys2Proof.Machine.execElectionWindowClose s
  | .bootStep5End late => Sys2Proof.Machine.execBootStep5End late s
  | .bootComplete parcelFail benchBad stacksFailed => Sys2Proof.Machine.execBootComplete parcelFail benchBad stacksFailed s
  | .bootStatus => Sys2Proof.Machine.execBootStatus s
  | .engineReset m => Sys2Proof.Machine.execEngineReset m s
  | .registryHeartbeat => Sys2Proof.Machine.execRegistryHeartbeat s
  | .registryTakeover reported => Sys2Proof.Machine.execRegistryTakeover reported s
  | .deputySnapshotDone => Sys2Proof.Machine.execDeputySnapshotDone s
  | .deputyLost => Sys2Proof.Machine.execDeputyLost s
  | .deputyAck record => Sys2Proof.Machine.execDeputyAck record s
  | .wardenCommand d source epoch => Sys2Proof.Machine.execWardenCommand d source epoch s
  | .wardenHeartbeat d => Sys2Proof.Machine.execWardenHeartbeat d s
  | .wardenLost d coreFailed => Sys2Proof.Machine.execWardenLost d coreFailed s
  | .stop p => Sys2Proof.Machine.execStop p s
  | .resume p => Sys2Proof.Machine.execResume p s
  | .bollard p event => Sys2Proof.Machine.execBollard p event s
  | .wardenSetRation p v => Sys2Proof.Machine.execWardenSetRation p v s
  | .setVoltage p code => Sys2Proof.Machine.execSetVoltage p code s
  | .lotMapWrite p hi v => Sys2Proof.Machine.execLotMapWrite p hi v s
  | .lotMapArm p arm => Sys2Proof.Machine.execLotMapArm p arm s
  | .lotMapBadClear p => Sys2Proof.Machine.execLotMapBadClear p s
  | .lotRemapWrite p l col n v => Sys2Proof.Machine.execLotRemapWrite p l col n v s
  | .cpCfgWrite p l v => Sys2Proof.Machine.execCpCfgWrite p l v s
  | .dmeExcClear p => Sys2Proof.Machine.execDmeExcClear p s
  | .swpExcClear p => Sys2Proof.Machine.execSwpExcClear p s
  | .suspectClear d bits => Sys2Proof.Machine.execSuspectClear d bits s
  | .paramWrite p n v => Sys2Proof.Machine.execParamWrite p n v s
  | .classWrite p n v => Sys2Proof.Machine.execClassWrite p n v s
  | .kvCfgWrite p v => Sys2Proof.Machine.execKvCfgWrite p v s
  | .stackWindowWrite p w r v => Sys2Proof.Machine.execStackWindowWrite p w r v s
  | .detourTableWrite d n v => Sys2Proof.Machine.execDetourTableWrite d n v s
  | .easeWrite hi v => Sys2Proof.Machine.execEaseWrite hi v s
  | .counterReadClear addr => Sys2Proof.Machine.execCounterReadClear addr s
  | .misalignedAccess addr bytes write => Sys2Proof.Machine.execMisalignedAccess addr bytes write s
  | .unbackedAccess addr write => Sys2Proof.Machine.execUnbackedAccess addr write s
  | .registerWrite addr v => Sys2Proof.Machine.execRegisterWrite addr v s
  | .add p o => Sys2Proof.Machine.execAdd p o s
  | .sub p o => Sys2Proof.Machine.execSub p o s
  | .and p o => Sys2Proof.Machine.execAnd p o s
  | .or p o => Sys2Proof.Machine.execOr p o s
  | .xor p o => Sys2Proof.Machine.execXor p o s
  | .sll p o => Sys2Proof.Machine.execSll p o s
  | .srl p o => Sys2Proof.Machine.execSrl p o s
  | .sra p o => Sys2Proof.Machine.execSra p o s
  | .slt p o => Sys2Proof.Machine.execSlt p o s
  | .sltu p o => Sys2Proof.Machine.execSltu p o s
  | .min p o => Sys2Proof.Machine.execMin p o s
  | .max p o => Sys2Proof.Machine.execMax p o s
  | .mul p o => Sys2Proof.Machine.execMul p o s
  | .mulh p o => Sys2Proof.Machine.execMulh p o s
  | .div p o => Sys2Proof.Machine.execDiv p o s
  | .divu p o => Sys2Proof.Machine.execDivu p o s
  | .rem p o => Sys2Proof.Machine.execRem p o s
  | .remu p o => Sys2Proof.Machine.execRemu p o s
  | .clz p o => Sys2Proof.Machine.execClz p o s
  | .popc p o => Sys2Proof.Machine.execPopc p o s
  | .li p o => Sys2Proof.Machine.execLi p o s
  | .lhi p o => Sys2Proof.Machine.execLhi p o s
  | .ld8s p o => Sys2Proof.Machine.execLd8s p o s
  | .ld8u p o => Sys2Proof.Machine.execLd8u p o s
  | .ld16s p o => Sys2Proof.Machine.execLd16s p o s
  | .ld16u p o => Sys2Proof.Machine.execLd16u p o s
  | .ld32s p o => Sys2Proof.Machine.execLd32s p o s
  | .ld32u p o => Sys2Proof.Machine.execLd32u p o s
  | .ld64 p o => Sys2Proof.Machine.execLd64 p o s
  | .st8 p o => Sys2Proof.Machine.execSt8 p o s
  | .st16 p o => Sys2Proof.Machine.execSt16 p o s
  | .st32 p o => Sys2Proof.Machine.execSt32 p o s
  | .st64 p o => Sys2Proof.Machine.execSt64 p o s
  | .vld p o => Sys2Proof.Machine.execVld p o s
  | .vst p o => Sys2Proof.Machine.execVst p o s
  | .beq p o => Sys2Proof.Machine.execBeq p o s
  | .bne p o => Sys2Proof.Machine.execBne p o s
  | .blt p o => Sys2Proof.Machine.execBlt p o s
  | .bge p o => Sys2Proof.Machine.execBge p o s
  | .bltu p o => Sys2Proof.Machine.execBltu p o s
  | .bgeu p o => Sys2Proof.Machine.execBgeu p o s
  | .jal p o => Sys2Proof.Machine.execJal p o s
  | .jalr p o => Sys2Proof.Machine.execJalr p o s
  | .vadd p o => Sys2Proof.Machine.execVadd p o s
  | .vsub p o => Sys2Proof.Machine.execVsub p o s
  | .vmul p o => Sys2Proof.Machine.execVmul p o s
  | .vmin p o => Sys2Proof.Machine.execVmin p o s
  | .vmax p o => Sys2Proof.Machine.execVmax p o s
  | .vdiv p o => Sys2Proof.Machine.execVdiv p o s
  | .vfma p o => Sys2Proof.Machine.execVfma p o s
  | .vexp p o => Sys2Proof.Machine.execVexp p o s
  | .vsqrt p o => Sys2Proof.Machine.execVsqrt p o s
  | .vrmax p o => Sys2Proof.Machine.execVrmax p o s
  | .vrsum p o => Sys2Proof.Machine.execVrsum p o s
  | .vmov p o => Sys2Proof.Machine.execVmov p o s
  | .cvt p o => Sys2Proof.Machine.execCvt p o s
  | .smax p o => Sys2Proof.Machine.execSmax p o s
  | .stopk p o => Sys2Proof.Machine.execStopk p o s
  | .scum p o => Sys2Proof.Machine.execScum p o s
  | .sword p o => Sys2Proof.Machine.execSword p o s
  | .spen p o => Sys2Proof.Machine.execSpen p o s
  | .nop p o => Sys2Proof.Machine.execNop p o s
  | .csrr p o => Sys2Proof.Machine.execCsrr p o s
  | .csrw p o => Sys2Proof.Machine.execCsrw p o s
  | .evwait p o => Sys2Proof.Machine.execEvwait p o s
  | .evpop p o => Sys2Proof.Machine.execEvpop p o s
  | .evpost p o => Sys2Proof.Machine.execEvpost p o s
  | .fence p o => Sys2Proof.Machine.execFence p o s
  | .fret p o => Sys2Proof.Machine.execFret p o s
  | .firmwareEventTake p => Sys2Proof.Machine.execFirmwareEventTake p s
  | .lmv p o => Sys2Proof.Machine.execLmv p o s
  | .lmva p o => Sys2Proof.Machine.execLmva p o s
  | .stagingFill p => Sys2Proof.Machine.execStagingFill p s
  | .lmvStart p l disturb => Sys2Proof.Machine.execLmvStart p l disturb s
  | .lmvDrain p => Sys2Proof.Machine.execLmvDrain p s
  | .flagLimitReport p l => Sys2Proof.Machine.execFlagLimitReport p l s
  | .driftFit p l j => Sys2Proof.Machine.execDriftFit p l j s
  | .recomputeRoutine p => Sys2Proof.Machine.execRecomputeRoutine p s
  | .dmm p o => Sys2Proof.Machine.execDmm p o s
  | .dmg p o => Sys2Proof.Machine.execDmg p o s
  | .ats p o => Sys2Proof.Machine.execAts p o s
  | .atv p o => Sys2Proof.Machine.execAtv p o s
  | .atx p o => Sys2Proof.Machine.execAtx p o s
  | .tileFetch p => Sys2Proof.Machine.execTileFetch p s
  | .opqFill p => Sys2Proof.Machine.execOpqFill p s
  | .dmeDispatch p => Sys2Proof.Machine.execDmeDispatch p s
  | .dmmCompute p => Sys2Proof.Machine.execDmmCompute p s
  | .kap p o => Sys2Proof.Machine.execKap p o s
  | .kapSend p => Sys2Proof.Machine.execKapSend p s
  | .appendAccept p flit => Sys2Proof.Machine.execAppendAccept p flit s
  | .kapAck p flit => Sys2Proof.Machine.execKapAck p flit s
  | .ldq p o => Sys2Proof.Machine.execLdq p o s
  | .stq p o => Sys2Proof.Machine.execStq p o s
  | .ldqRun p => Sys2Proof.Machine.execLdqRun p s
  | .stqRun p => Sys2Proof.Machine.execStqRun p s
  | .stackReadRequest k flit erased => Sys2Proof.Machine.execStackReadRequest k flit erased s
  | .stackReadResponse p flit => Sys2Proof.Machine.execStackReadResponse p flit s
  | .stackWrite k flit => Sys2Proof.Machine.execStackWrite k flit s
  | .ackCount p flit => Sys2Proof.Machine.execAckCount p flit s
  | .poolCreditReturn p k => Sys2Proof.Machine.execPoolCreditReturn p k s
  | .waitq p o => Sys2Proof.Machine.execWaitq p o s
  | .snd p o => Sys2Proof.Machine.execSnd p o s
  | .rcv p o => Sys2Proof.Machine.execRcv p o s
  | .mcs p o => Sys2Proof.Machine.execMcs p o s
  | .hint p o => Sys2Proof.Machine.execHint p o s
  | .hintExpiry p => Sys2Proof.Machine.execHintExpiry p s
  | .sndStart p => Sys2Proof.Machine.execSndStart p s
  | .rcvPost p => Sys2Proof.Machine.execRcvPost p s
  | .recordReceive p flit => Sys2Proof.Machine.execRecordReceive p flit s
  | .flitArrival flit uncorrectable => Sys2Proof.Machine.execFlitArrival flit uncorrectable s
  | .frameBoundary => Sys2Proof.Machine.execFrameBoundary s
  | .holeSense d => Sys2Proof.Machine.execHoleSense d s
  | .passStart p payload => Sys2Proof.Machine.execPassStart p payload s
  | .kvPlan p step => Sys2Proof.Machine.execKvPlan p step s
  | .summaryReceive p flit => Sys2Proof.Machine.execSummaryReceive p flit s
  | .rdmaWrite pkt off bytes => Sys2Proof.Machine.execRdmaWrite pkt off bytes s
  | .rdmaRead pkt off len => Sys2Proof.Machine.execRdmaRead pkt off len s
  | .unsupportedRdmaOp ring => Sys2Proof.Machine.execUnsupportedRdmaOp ring s
  | .rcRetryExhausted ring => Sys2Proof.Machine.execRcRetryExhausted ring s
  | .cnpReceive ring => Sys2Proof.Machine.execCnpReceive ring s
  | .rateRecovery ring => Sys2Proof.Machine.execRateRecovery ring s
  | .admission => Sys2Proof.Machine.execAdmission s
  | .cancelScan => Sys2Proof.Machine.execCancelScan s
  | .waitingDeadline => Sys2Proof.Machine.execWaitingDeadline s
  | .stepSend => Sys2Proof.Machine.execStepSend s
  | .sample step => Sys2Proof.Machine.execSample step s
  | .stepDoneSend step => Sys2Proof.Machine.execStepDoneSend step s
  | .commitDecision step => Sys2Proof.Machine.execCommitDecision step s
  | .commit step => Sys2Proof.Machine.execCommit step s
  | .commitApply step => Sys2Proof.Machine.execCommitApply step s
  | .stepReplay step => Sys2Proof.Machine.execStepReplay step s
  | .stepAbandon step => Sys2Proof.Machine.execStepAbandon step s
  | .drainLimitExpiry => Sys2Proof.Machine.execDrainLimitExpiry s
  | .dataMessage m => Sys2Proof.Machine.execDataMessage m s
  | .ack m => Sys2Proof.Machine.execAck m s
  | .ackSend peer => Sys2Proof.Machine.execAckSend peer s
  | .load m => Sys2Proof.Machine.execLoad m s
  | .loadTimeout => Sys2Proof.Machine.execLoadTimeout s
  | .step m => Sys2Proof.Machine.execStep m s
  | .stepDone m b => Sys2Proof.Machine.execStepDone m b s
  | .commitMessage m lens => Sys2Proof.Machine.execCommitMessage m lens s
  | .mgmt m src => Sys2Proof.Machine.execMgmt m src s
  | .reassemblyTimeout xid src => Sys2Proof.Machine.execReassemblyTimeout xid src s
  | .probe m => Sys2Proof.Machine.execProbe m s
  | .avenueV1Message m => Sys2Proof.Machine.execAvenueV1Message m s
  | .messageClose port => Sys2Proof.Machine.execMessageClose port s
  | .retransmit peer mseq => Sys2Proof.Machine.execRetransmit peer mseq s
  | .pauseSpill port => Sys2Proof.Machine.execPauseSpill port s
  | .linkDown link => Sys2Proof.Machine.execLinkDown link s
  | .linkUp link pol eyes => Sys2Proof.Machine.execLinkUp link pol eyes s
  | .portLost port => Sys2Proof.Machine.execPortLost port s
  | .transceiverInsert port laneBad => Sys2Proof.Machine.execTransceiverInsert port laneBad s
  | .eyeMeasure port eyes => Sys2Proof.Machine.execEyeMeasure port eyes s
  | .ptpMessage o => Sys2Proof.Machine.execPtpMessage o s
  | .ptpSyncLoss => Sys2Proof.Machine.execPtpSyncLoss s
  | .meterWindow p avg => Sys2Proof.Machine.execMeterWindow p avg s
  | .capLoop p1ms pmax vin iin => Sys2Proof.Machine.execCapLoop p1ms pmax vin iin s
  | .energySample vin iin => Sys2Proof.Machine.execEnergySample vin iin s
  | .feederTrip d => Sys2Proof.Machine.execFeederTrip d s
  | .phaseLost p phase => Sys2Proof.Machine.execPhaseLost p phase s
  | .regulatorFault p atLimit => Sys2Proof.Machine.execRegulatorFault p atLimit s
  | .padCheck d excess => Sys2Proof.Machine.execPadCheck d excess s
  | .engineSetState m target drainMs => Sys2Proof.Machine.execEngineSetState m target drainMs s
  | .districtSetState m district target => Sys2Proof.Machine.execDistrictSetState m district target s
  | .switchOnTest d probeOk => Sys2Proof.Machine.execSwitchOnTest d probeOk s
  | .switchOnTimeout d => Sys2Proof.Machine.execSwitchOnTimeout d s
  | .reserveRelease d => Sys2Proof.Machine.execReserveRelease d s
  | .switchOnComplete d => Sys2Proof.Machine.execSwitchOnComplete d s
  | .setClockMode m district mode => Sys2Proof.Machine.execSetClockMode m district mode s
  | .setRation m district parcel ration => Sys2Proof.Machine.execSetRation m district parcel ration s
  | .setCap m cap => Sys2Proof.Machine.execSetCap m cap s
  | .setValve m setpoint port dest => Sys2Proof.Machine.execSetValve m setpoint port dest s
  | .modelLoad m o => Sys2Proof.Machine.execModelLoad m o s
  | .lotProgramStart p l => Sys2Proof.Machine.execLotProgramStart p l s
  | .lotProgramDone p l fails => Sys2Proof.Machine.execLotProgramDone p l fails s
  | .loadDone => Sys2Proof.Machine.execLoadDone s
  | .adapterPlace slot => Sys2Proof.Machine.execAdapterPlace slot s
  | .modelUnload m kind slot flags => Sys2Proof.Machine.execModelUnload m kind slot flags s
  | .layerSetResidency m layer mode => Sys2Proof.Machine.execLayerSetResidency m layer mode s
  | .rewrite p l => Sys2Proof.Machine.execRewrite p l s
  | .backgroundBeat p l => Sys2Proof.Machine.execBackgroundBeat p l s
  | .traverse m scope district parcel lot port => Sys2Proof.Machine.execTraverse m scope district parcel lot port s
  | .traverseDone id r => Sys2Proof.Machine.execTraverseDone id r s
  | .residCheck d => Sys2Proof.Machine.execResidCheck d s
  | .prefixRelease m handle => Sys2Proof.Machine.execPrefixRelease m handle s
  | .quote m challenge flags => Sys2Proof.Machine.execQuote m challenge flags s
  | .fabricSetConfig m o => Sys2Proof.Machine.execFabricSetConfig m o s
  | .ringBind m o => Sys2Proof.Machine.execRingBind m o s
  | .ownerSet m key => Sys2Proof.Machine.execOwnerSet m key s
  | .mgmtKey m cipher signature => Sys2Proof.Machine.execMgmtKey m cipher signature s
  | .trustSet m action body => Sys2Proof.Machine.execTrustSet m action body s
  | .firmwareUpdate m off last data => Sys2Proof.Machine.execFirmwareUpdate m off last data s
  | .regRead m addr count mode => Sys2Proof.Machine.execRegRead m addr count mode s
  | .firmwareRcSweep d => Sys2Proof.Machine.execFirmwareRcSweep d s
  | .refInputFail ref1 => Sys2Proof.Machine.execRefInputFail ref1 s
  | .refInputGood ref1 => Sys2Proof.Machine.execRefInputGood ref1 s
  | .nodeLock d => Sys2Proof.Machine.execNodeLock d s
  | .meshLockFail d => Sys2Proof.Machine.execMeshLockFail d s
  | .nodeFail d => Sys2Proof.Machine.execNodeFail d s
  | .portOscFail port => Sys2Proof.Machine.execPortOscFail port s
  | .sensorSample d a b parcels => Sys2Proof.Machine.execSensorSample d a b parcels s
  | .thermalStep d => Sys2Proof.Machine.execThermalStep d s
  | .tempDisagree place disagree => Sys2Proof.Machine.execTempDisagree place disagree s
  | .flowUpdate f t => Sys2Proof.Machine.execFlowUpdate f t s
  | .flowNotice => Sys2Proof.Machine.execFlowNotice s
  | .flowFail => Sys2Proof.Machine.execFlowFail s
  | .switchFail => Sys2Proof.Machine.execSwitchFail s
  | .coolantLost => Sys2Proof.Machine.execCoolantLost s
  | .coolantTrip => Sys2Proof.Machine.execCoolantTrip s
  | .flowReturn => Sys2Proof.Machine.execFlowReturn s
  | .reversedFlow => Sys2Proof.Machine.execReversedFlow s
  | .reversedClear => Sys2Proof.Machine.execReversedClear s
  | .inletRange outside => Sys2Proof.Machine.execInletRange outside s
  | .leak open_ => Sys2Proof.Machine.execLeak open_ s
  | .valveSat saturated => Sys2Proof.Machine.execValveSat saturated s
  | .forecastCompute avg1s rowsWaiting rowsRun edge => Sys2Proof.Machine.execForecastCompute avg1s rowsWaiting rowsRun edge s
  | .forecastMessage => Sys2Proof.Machine.execForecastMessage s
  | .stackLost k routeOnly => Sys2Proof.Machine.execStackLost k routeOnly s
  | .scrub addr bad => Sys2Proof.Machine.execScrub addr bad s
  | .stackRebuildDone k => Sys2Proof.Machine.execStackRebuildDone k s
  | .coverBringIn d => Sys2Proof.Machine.execCoverBringIn d s
  | .parcelReplaced p => Sys2Proof.Machine.execParcelReplaced p s
  | .districtRestored d spare => Sys2Proof.Machine.execDistrictRestored d spare s
  | .bypass tdi => Sys2Proof.Machine.execBypass tdi s
  | .idcode => Sys2Proof.Machine.execIdcode s
  | .samplePreload bits => Sys2Proof.Machine.execSamplePreload bits s
  | .extest => Sys2Proof.Machine.execExtest s
  | .intest => Sys2Proof.Machine.execIntest s
  | .tapChallenge => Sys2Proof.Machine.execTapChallenge s
  | .tapUnlock cert sig => Sys2Proof.Machine.execTapUnlock cert sig s
  | .tapReset => Sys2Proof.Machine.execTapReset s
  | .districtTransitionEnd d => Sys2Proof.Machine.execDistrictTransitionEnd d s
  | .creditReturn p outPort vc leg => Sys2Proof.Machine.execCreditReturn p outPort vc leg s
  | .rcAck ring psn fatalNak => Sys2Proof.Machine.execRcAck ring psn fatalNak s
  | .rcAckTimeout ring => Sys2Proof.Machine.execRcAckTimeout ring s
  | .remotePause port pause => Sys2Proof.Machine.execRemotePause port pause s

end Sys2Proof.Machine
end

