-- ==== Sys2Proof/Machine/Tick.lean ====
section
/-!
DEFINITION. What time does by itself: one cycle of the 8.0 GHz mesh root (01 R37; 06 R179, R191, R197; 07 R230; 09 R249, R268, R279, R293,
R296; 12 R381; 14 R447, R448; 15 R470; 16 R493 to R496). DESIGN CHOICE (log 2): this is what a step does on an empty queue. It moves
counters; a sweeper that stands at a word no row stands for raises ILLEGAL; in every FCLK cycle flits that wait move on, and what has
begun to send and waits for the lanes goes on. Whatever else happens at a time has a row of its own.
-/
namespace Sys2Proof.Machine

/-- Engine time after one more root cycle: a nanosecond every 8 cycles. What is to be slewed goes a nanosecond in every 5,000, which is
200 ppm; the counter never runs backward. -/
def Time.advance (t : Time) : Time :=
  let c := t.cycles + 1
  let t1 := { t with cycles := c, ns := if c % 8 = 0 then t.ns + 1 else t.ns }
  if c % 40000 ≠ 0 || t.slew = 0 then t1
  else if 0 < t.slew then { t1 with ns := t.ns, slew := t.slew - 1 }
  else { t1 with ns := t.ns + 2, slew := t.slew + 1 }

/-- The divisor of PCLK in this window (R493, R495). -/
def Meter.divisor (m : Meter) : Nat :=
  match m.modeApplied with
  | 1 => if m.surp then 3 else 4
  | 2 => 5
  | 3 => 8
  | _ => 4

/-- Whether a cycle of a clock of divisor `d` starts at root cycle `r` of a window; the last one is lengthened (R494). -/
def clockEdge (d r : Nat) : Bool := r % d == 0 && decide (r / d < 1024 / d)

/-- The counters of the mesh after one more root cycle (R296, R493). -/
def Clk.advance (c : Clk) : Clk :=
  let r := (c.root + 1) % 1024
  let f := if r % 4 = 0 then c.fclk + 1 else c.fclk
  { c with
    root := r
    window := if r = 0 then c.window + 1 else c.window
    fclk := f
    frame := if r % 4 = 0 && f % 4096 = 0 then (c.frame + 1) % 2 ^ 32 else c.frame }

/-- Whether issue is blocked by EVWAIT, WAITQ or FENCE (R190, R197): not while firmware runs, nor while issue is stopped. -/
def ParcelState.blockedByWait (ps : ParcelState) : Bool :=
  ps.swp.wait.isSome && !ps.swp.fw && !ps.swp.inReset && !ps.swp.stopped && !ps.health.bollard

/-- The tag that a word carries (R178). -/
def wordTag (w : BitVec 64) : Nat :=
  let c := (w.extractLsb' 60 4).toNat
  if c = 5 || (8 ≤ c && c ≤ 12) then (w.extractLsb' 50 4).toNat else 0

/-- One PCLK cycle of parcel `p`: CYCLE counts it, STALL_DEP counts it where a wait blocks issue, and an unlisted word at the PC raises
ILLEGAL (R179, R191, R197). -/
def ParcelState.pclk (ps : ParcelState) (p : Pid) (store : List Byte) : ParcelState :=
  let ps1 := { ps with swp := { ps.swp with cycle := (ps.swp.cycle + 1) % 2 ^ 64 } }
  if ps.blockedByWait then ps1.stallDep else if ps.unlisted p store then ps1.precise 1 (wordTag (ps.fetchWord store)) else ps1

/-- Parcel `p` at root cycle `r` of a window: PCLK runs in an ACTIVE district only (R470). -/
def ParcelState.clocked (ps : ParcelState) (p : Pid) (store : List Byte) (r : Nat) : ParcelState :=
  if ps.reg.on && clockEdge ps.meter.divisor r then ps.pclk p store else ps

/-- Heartbeats are due every 2 µs, which is 16,000 root cycles: each is missed until it comes (R37). -/
def State.missBeats (s : State) : State :=
  { s with
    core := { s.core with hbMissed := s.core.hbMissed + 1 }
    dists := s.dists.map (fun x => (x.1, if x.2.live then { x.2 with hbMissed := x.2.hbMissed + 1 } else x.2)) }

/-- What a parcel has begun to send, and sends on as far as its port takes it: its SND or MCS, the requests of a load entry, the records
of a store entry; and the spilled records that it wants back (R230, R249, R376, R378, R381). -/
def State.goOn (s : State) (p : Pid) : State :=
  let s1 := if (s.parcel p).lane.sending.isSome then s.sndStart p else s
  let s2 := if (s1.parcel p).nextLoad.any QueEntry.started then s1.ldqRun p else s1
  let s3 := if (s2.parcel p).nextStore.any QueEntry.started then s2.stqRun p else s2
  s3.readBack p

/-- One FCLK cycle: the lanes, the acknowledgements that wait at the controllers, what parcels and port blocks go on sending, and the
summaries that wait (R268, R279, R293, R314). -/
def State.fclkCycle (s : State) : State :=
  let s1 := s.lanesCycle.sendAcks
  let s2 := (s1.parcels.filter (fun x => !x.2.health.bollard)).foldl (fun (t : State) x => t.goOn (pidOf x.1)) s1
  let ports := (List.finRange 16).filter (fun k => !(s2.port k.val).spillQueue.isEmpty)
  (ports.foldl (fun (t : State) k => t.drainPort k (t.port k.val).spillQueue.length) s2).sendAllSummaries

/-- One root cycle. -/
def State.tick (s : State) : State :=
  if s.core.st = .off then s
  else
    let s1 := { s with time := s.time.advance }
    let s2 := if s1.time.cycles % 16000 = 0 && s1.core.epoch ≠ 0 then s1.missBeats else s1
    if !s2.clk.sync then s2
    else
      let c := s2.clk.advance
      let s3 := { s2 with
        clk := c
        parcels := s2.parcels.map (fun x =>
          (x.1, if (s2.dist (x.1 / 144)).st = .active then x.2.clocked (pidOf x.1) s2.boot.fwStore c.root else x.2)) }
      if c.root % 4 = 0 then s3.fclkCycle else s3

end Sys2Proof.Machine
end

