-- ==== Sys2Proof/Safety.lean ====
section
/-!
DEFINITION. What counts as a safe step, and the terms the statements are written in: a parcel that can issue, the state after an issue,
a step that leaves all but one parcel alone.
-/
namespace Sys2Proof.Machine

/-- A step that goes on. -/
def goesOn (o : Host.Outcome State Fault Refusal) : Prop := ∃ t, o = .next t

/-- Parcel `p` reaches the instruction at its PC: its district is ACTIVE (R470), its sweeper is out of reset, not stopped, not waiting,
and the PC is where a fetch may be made (R173). -/
def State.atInstr (s : State) (p : Pid) : Bool := s.running p && (s.parcel p).ready && !(s.parcel p).fetchBad

/-- Parcel `p` can issue an instruction of current class `c`: it reaches it, and the meter admits it (R194, R241). -/
def State.canIssue (s : State) (p : Pid) (c : Nat) : Bool := s.atInstr p && (s.parcel p).admits c

/-- The state after an instruction of class `c` of parcel `p` issued that leaves the parcel as `ps` and the PC at `pc`. -/
def State.afterIssue (s : State) (p : Pid) (c : Nat) (ps : ParcelState) (pc : Nat) : State :=
  s.setParcel p (ps.issued (s.parcel p).heldMa c pc)

/-- The state after a precise exception of parcel `p` with cause `c`, of an instruction with tag `tag` (R199). -/
def State.afterExc (s : State) (p : Pid) (c : Nat) (tag : Nat := 0) : State := s.setParcel p ((s.parcel p).precise c tag)

/-- The parcel with a unit instruction of class `c` and token `tk` taken in: its number, its token, its draw (R205, R240). -/
def ParcelState.unitTaken (ps : ParcelState) (c : Nat) (tk : BitVec 4) : ParcelState :=
  { ps with
    nextId := ps.nextId + 1
    tokens := Sparse.put ps.tokens tk.toNat (ps.token tk.toNat + 1)
    meter := { ps.meter with held := ps.meter.held ++ [{ id := ps.nextId, cls := c }] } }

/-- A host command that passes every check of R576 before the two on its operands and on the engine's state: a registry answers, and, where
the command carries a trailer, the tag verifies, the counter is above the last one, its floor can be written, and the reserved bytes
are 0. -/
def State.canCommand (s : State) (i : Instr) : Prop :=
  s.answers = true ∧ (hostEncode i).isSome = true ∧ (s.needsTrailer (cmdFor i).opcode = true →
    s.tagOk (cmdFor i) = true ∧ s.sec.lastCtr < (cmdFor i).ctr.toNat ∧ s.floorFails (cmdFor i) = false ∧ (cmdFor i).rsv = 0)

/-- The state in which such a command is carried out: the counter is taken, the log record written (R35, R576). -/
def State.commanded (s : State) (i : Instr) : State :=
  State.logCommand (if s.needsTrailer (cmdFor i).opcode then s.accepted (cmdFor i) else s) (cmdFor i)

/-- The state after the reply to such a command; `t` is what the command leaves. -/
def State.answered (s t : State) (i : Instr) (r : Reply) : State :=
  t.replyUnder s.nv.mkey (s.replyAddr (cmdFor i)) (cmdFor i).opcode r

/-- The step goes on, and all it changes is parcel `p`. -/
def State.onlyParcel (s t : State) (p : Pid) : Prop :=
  t = { s with parcels := t.parcels } ∧ ∀ q : Pid, q ≠ p → t.parcel q = s.parcel q

/-- Every byte memory of the block is in its canonical form: the stack space, each parcel's SRAM, both firmware slots of the flash. -/
def State.memWf (s : State) : Prop :=
  Mem.wf stackDflt s.stk.mem = true ∧ Mem.wf flashDflt s.nv.slotA = true ∧ Mem.wf flashDflt s.nv.slotB = true ∧
  ∀ x ∈ s.parcels, Mem.wf sramDflt x.2.sram = true

/-- The SRAM bytes that an instruction of Plat may store to as it issues: address and number, from the registers as it reads them (R183,
R188, R189); none for an instruction that stores nothing itself. What a unit instruction stores, it stores when its unit runs it. -/
def storeRange (ps : ParcelState) : Instr → Option (Nat × Nat)
  | .st8 _ o => some (memAddr ps o, 1)
  | .st16 _ o => some (memAddr ps o, 2)
  | .st32 _ o => some (memAddr ps o, 4)
  | .st64 _ o => some (memAddr ps o, 8)
  | .vst _ o => some (memAddr ps o, 1024)
  | .cvt _ o => some ((ps.gReg o.rb.toNat).toNat, cvtDstBytes o (ps.gReg o.rn.toNat).toNat)
  | .stopk _ o => some ((ps.gReg o.rs3.toNat).toNat, 8 * (o.km1.toNat + 1))
  | .scum _ o => some ((ps.gReg o.rs1.toNat).toNat, 4 * (ps.gReg o.rs2.toNat).toNat)
  | .spen _ o => some ((ps.gReg o.rs1.toNat).toNat, 4 * ((ps.gReg o.rd.toNat).toNat / 2 ^ 32))
  | _ => none

/-- The scalar register that an instruction of Plat writes as it issues. -/
def destScalar : Instr → Option Nat
  | .add _ o => some o.rd.toNat
  | .sub _ o => some o.rd.toNat
  | .and _ o => some o.rd.toNat
  | .or _ o => some o.rd.toNat
  | .xor _ o => some o.rd.toNat
  | .sll _ o => some o.rd.toNat
  | .srl _ o => some o.rd.toNat
  | .sra _ o => some o.rd.toNat
  | .slt _ o => some o.rd.toNat
  | .sltu _ o => some o.rd.toNat
  | .min _ o => some o.rd.toNat
  | .max _ o => some o.rd.toNat
  | .mul _ o => some o.rd.toNat
  | .mulh _ o => some o.rd.toNat
  | .div _ o => some o.rd.toNat
  | .divu _ o => some o.rd.toNat
  | .rem _ o => some o.rd.toNat
  | .remu _ o => some o.rd.toNat
  | .clz _ o => some o.rd.toNat
  | .popc _ o => some o.rd.toNat
  | .li _ o => some o.rd.toNat
  | .lhi _ o => some o.rd.toNat
  | .ld8s _ o => some o.rd.toNat
  | .ld8u _ o => some o.rd.toNat
  | .ld16s _ o => some o.rd.toNat
  | .ld16u _ o => some o.rd.toNat
  | .ld32s _ o => some o.rd.toNat
  | .ld32u _ o => some o.rd.toNat
  | .ld64 _ o => some o.rd.toNat
  | .jal _ o => some o.rd.toNat
  | .jalr _ o => some o.rd.toNat
  | .vrmax _ o => some o.rd.toNat
  | .vrsum _ o => some o.rd.toNat
  | .smax _ o => some o.rd.toNat
  | .scum _ o => some o.rd.toNat
  | .sword _ o => some o.rd.toNat
  | .csrr _ o => some o.rd.toNat
  | .evwait _ o => some o.rd.toNat
  | .evpop _ o => some o.rd.toNat
  | _ => none

/-- The vector register that an instruction of Plat writes. -/
def destVector : Instr → Option Nat
  | .vld _ o => some o.rd.toNat
  | .vadd _ o => some o.vd.toNat
  | .vsub _ o => some o.vd.toNat
  | .vmul _ o => some o.vd.toNat
  | .vmin _ o => some o.vd.toNat
  | .vmax _ o => some o.vd.toNat
  | .vdiv _ o => some o.vd.toNat
  | .vfma _ o => some o.vd.toNat
  | .vexp _ o => some o.vd.toNat
  | .vsqrt _ o => some o.vd.toNat
  | .vmov _ o => some o.vd.toNat
  | _ => none

/-- A row that brings a management message, whose command then runs (R438, R615). -/
def carriesCommand (i : Instr) : Prop := (∃ m src, i = .mgmt m src) ∨ ∃ v, i = .avenueV1Message v

end Sys2Proof.Machine
end

