-- ==== Sys2Proof/WellFormed.lean ====
section
/-!
DEFINITION. Well-formed commands: operands that a list or a number could give a size or a range that the command does not have (02 R47;
14 R424, R439; 15 R482; 22 R615, R617). Operands that the manual answers MALFORMED, or raises an exception for, are well formed here:
their command runs and gives that answer.
-/
namespace Sys2Proof

/-- A link of the engine, or a management port. -/
def AveIn.wf (m : AveIn) : Bool := m.onMgmt || decide (m.link < 128)

/-- A failed site lies in the array (R47). -/
def SiteFail.wf (f : SiteFail) : Bool := decide (f.row < 1040) && decide (f.col < 1056)

/-- The operands of MODEL_LOAD fill their 720 bytes. -/
def LoadOps.wf (o : LoadOps) : Bool := o.envelope.length == 161 && o.tenants.length == 16

/-- Whether a command is well formed. -/
def Instr.wf : Instr → Bool
  | .modelLoad _ o => o.wf
  | .fabricSetConfig _ o => o.modes.length == 16
  | .mgmtKey _ c _ => c.length == 161
  | .firmwareUpdate _ _ _ d => decide (d.length < 65536)
  | .dataMessage m => m.wf
  | .ack m => m.wf
  | .load m => m.wf
  | .step m => m.wf
  | .stepDone m _ => m.wf
  | .commitMessage m _ => m.wf
  | .mgmt m _ => m.wf
  | .probe m => m.wf
  | .linkUp _ _ e => decide (e.length ≤ 8)
  | .eyeMeasure _ e => decide (e.length ≤ 8)
  | .ptpMessage o => decide (o.port < 18)
  | .padCheck _ e => e.length == 16
  | .lotProgramDone _ _ f => f.all SiteFail.wf
  | .misalignedAccess a n _ => decide (n ≠ 8) || decide (a % 8 ≠ 0)
  | _ => true

end Sys2Proof
end

