-- ==== Sys2Proof/Certificates/Slice0/Obligations.lean ====
section
/-!
DEFINITION. The statements for the provers.
-/
open Sys2Proof Sys2Proof.Machine

/-! ### The whole block -/

/-- Each step takes the command at the front of the queue and runs it with the queue's rest; on an empty queue it runs one root cycle. -/
def Obligations.StepRuns : Prop :=
  ∀ (s : State) (c : Instr) (rest : List Instr),
    step { s with pending := c :: rest } = exec c { s with pending := rest } ∧
    step { s with pending := [] } = .next ({ s with pending := [] } : State).tick

/-- Every command of the table answers a next state, in every state, and none touches the queue of those that wait. Where the manual
leaves it to the model: log 1. -/
def Obligations.EveryCommandAnswers : Prop :=
  ∀ (i : Instr) (s : State), ∃ t, exec i s = .next t ∧ t.pending = s.pending

/-- One cycle of the mesh root (R179, R191, R197, R296, R447, R493; log 2): engine time moves on by a nanosecond every eight cycles and
never back; 1,024 cycles are a window, four an FCLK cycle, 4,096 FCLK cycles a frame; PCLK counts in ACTIVE districts only, where a
waiting image counts a blocked cycle and a sweeper that stands at an unlisted word raises ILLEGAL; memories and registers stay. What the
lanes, the controllers and the units that send do by themselves they do in the cycles that begin an FCLK cycle. -/
def Obligations.RootCycle : Prop :=
  ∀ (s : State), let t := s.tick
    (s.core.st = .off → t = s) ∧ t.nv = s.nv ∧ t.pending = s.pending ∧
    s.time.ns ≤ t.time.ns ∧ t.time.ns ≤ s.time.ns + 2 ∧
    (s.core.st ≠ .off → s.time.slew = 0 → t.time.ns = s.time.ns + (if (s.time.cycles + 1) % 8 = 0 then 1 else 0)) ∧
    (s.core.st ≠ .off → s.clk.sync = true → t.clk.root = (s.clk.root + 1) % 1024 ∧
      t.clk.window = s.clk.window + (if (s.clk.root + 1) % 1024 = 0 then 1 else 0) ∧
      t.clk.fclk = s.clk.fclk + (if (s.clk.root + 1) % 4 = 0 then 1 else 0) ∧
      t.clk.frame = (if (s.clk.root + 1) % 4 = 0 ∧ (s.clk.fclk + 1) % 4096 = 0 then (s.clk.frame + 1) % 2 ^ 32 else s.clk.frame)) ∧
    ∃ u : State, u.stk = s.stk ∧ u.net = s.net ∧ u.serve = s.serve ∧ u.out = s.out ∧ u.fab = s.fab ∧
      t = (if s.core.st ≠ .off ∧ s.clk.sync = true ∧ (s.clk.root + 1) % 4 = 0 then u.fclkCycle else u) ∧
      ∀ (p : Pid), (u.parcel p).sram = (s.parcel p).sram ∧ (∀ n, (u.parcel p).gReg n = (s.parcel p).gReg n) ∧
        (u.parcel p).pc = (s.parcel p).pc ∧ ((s.dist p.d.val).st ≠ .active → u.parcel p = s.parcel p) ∧
        (s.core.st ≠ .off → s.clk.sync = true → (s.dist p.d.val).st = .active → (s.parcel p).reg.on = true →
          clockEdge (s.parcel p).meter.divisor ((s.clk.root + 1) % 1024) = true →
          (u.parcel p).swp.cycle = ((s.parcel p).swp.cycle + 1) % 2 ^ 64 ∧
          ((s.parcel p).blockedByWait = true →
            (u.parcel p).swp.stallDep = Nat.min ((s.parcel p).swp.stallDep + 1) (2 ^ 32 - 1)) ∧
          ((s.parcel p).blockedByWait = false → (s.parcel p).unlisted p s.boot.fwStore = true →
            (u.parcel p).swp.stopped = true ∧ ((s.parcel p).swp.exc = false → (u.parcel p).swp.exc = true ∧ (u.parcel p).swp.cause = 1)))

/-- What the block holds at reset, by the field maps: no supply and nothing waiting; the declared draws at the defaults of R239, the cap
at its default of R466 and the setpoint at 36.0 L/min (R511), every detour DIRECT (R300), no factor reduced (R461); its memories are
canonical. The values that the manual leaves open (logs 5 and 6) are not among them. -/
def Obligations.ResetState : Prop :=
  State.reset.core.st = .off ∧ State.reset.pending = [] ∧ State.reset.out = [] ∧ State.reset.memWf ∧
  (∀ (p : Pid), ((List.range 16).map (State.reset.parcel p).draw) = [12, 30, 36, 24, 16, 14, 20, 0, 190, 240, 280, 320, 260, 0, 0, 0] ∧
    (∀ n, (State.reset.parcel p).token n = 0) ∧ (State.reset.parcel p).map = [] ∧ State.reset.factor p = 256) ∧
  (∀ d n, Sparse.get 0 (State.reset.dist d).detour n = 0) ∧
  State.reset.pwr.cap = 20000 ∧ State.reset.cool.setpoint = 360 ∧ State.reset.pwr.energy = 0 ∧
  step State.reset = .next State.reset

/-- Every step keeps the byte memories in their canonical form, so that equal memories are equal data. -/
def Obligations.MemoriesStayCanonical : Prop :=
  ∀ (s t : State), s.memWf → step s = .next t → t.memWf

/-- What the flash keeps (R5, R572 to R579, R592 to R594): fuses and serial number never change, the SVN fuses only grow and only as boot
completes, DEBUG_EVER never clears; the owner key, the management key, the trust store and the fabric record change through their own
commands alone, or the management message that carries such a command, and the management key also as debug is unlocked. -/
def Obligations.KeysAndFuses : Prop :=
  ∀ (i : Instr) (s t : State), exec i s = .next t →
    t.nv.grade = s.nv.grade ∧ t.nv.stepping = s.nv.stepping ∧ t.nv.fused = s.nv.fused ∧ t.nv.serial = s.nv.serial ∧
    s.nv.svnFuse ≤ t.nv.svnFuse ∧ (t.nv.svnFuse ≠ s.nv.svnFuse → ∃ a b c, i = .bootComplete a b c) ∧
    (s.nv.debugEver = true → t.nv.debugEver = true) ∧ (t.nv.debugEver ≠ s.nv.debugEver → ∃ c g, i = .tapUnlock c g) ∧
    (t.nv.owner ≠ s.nv.owner → (∃ m k, i = .ownerSet m k) ∨ carriesCommand i) ∧
    (t.nv.mkey ≠ s.nv.mkey →
      (∃ m k, i = .ownerSet m k) ∨ (∃ m c g, i = .mgmtKey m c g) ∨ (∃ c g, i = .tapUnlock c g) ∨ carriesCommand i) ∧
    (t.nv.trust ≠ s.nv.trust → (∃ m a k, i = .trustSet m a k) ∨ carriesCommand i) ∧
    (t.nv.fabric ≠ s.nv.fabric → (∃ m f, i = .fabricSetConfig m f) ∨ carriesCommand i)

/-- The frame of the rows that only report or measure for the engine: parcels, lanes, loads, serving, fabric and flash stay, and so does
every byte of the stack space outside the fault log. Where the manual leaves it to the model: logs 1, 3. -/
def Obligations.NoticeFrame : Prop :=
  ∀ (s t : State) (i : Instr) (b : Bool) (n1 n2 n3 n4 : Nat) (o : PtpOps), i ∈ [Instr.refInputFail b, .refInputGood b, .capLoop n1 n2 n3 n4,
      .energySample n1 n2, .fastLimit n1, .undervolt n1, .inletRange b, .leak b, .valveSat b, .reversedFlow, .reversedClear, .flowNotice,
      .flowReturn, .forecastCompute n1 n2 n3 n4, .forecastMessage, .ptpMessage o, .ptpSyncLoss, .tempDisagree .inPort b,
      .tempDisagree .outPort b] → exec i s = .next t →
    t.core = s.core ∧ t.boot = s.boot ∧ t.dists = s.dists ∧ t.parcels = s.parcels ∧ t.net = s.net ∧ t.load = s.load ∧
    t.model = s.model ∧ t.serve = s.serve ∧ t.fab = s.fab ∧ t.nv = s.nv ∧ t.tap = s.tap ∧ t.cal = s.cal ∧ t.mgmt = s.mgmt ∧
    t.stk.lost = s.stk.lost ∧ t.stk.keys = s.stk.keys ∧
    ∀ x, x < 0x40000200 ∨ 0x40000200 + 72 * 524288 ≤ x → t.stackRead x 1 = s.stackRead x 1

/-- The words of Plat (R178, R180, R185 to R190, R206 to R233): decoding the word of an instruction gives that instruction, with every
field at every value; and three words written out from the layouts. -/
def Obligations.PlatRoundTrip : Prop :=
  (∀ (i : Instr) (p : Pid) (w : BitVec 64), platEncode i = some (p, w) → platDecode p w = some i) ∧
  ∀ (p : Pid),
    platDecode p 0x90092EC3D98D7000 = some (.dmm p {
      tag := 2, tk := 4, tf := 11, xf := 11, nm1 := 0, km1 := 15, chain := false, write := true, wf := true, raw := false, rt := 12,
      rx := 13, rd := 14, rsv := 0 }) ∧
    platDecode p 0x800C57CA58000000 = some (.lmv p { tag := 3, tk := 1, lot := 5, nm1 := 7, ofmt := 2, rs := 10, rd := 11, rsv := 0 }) ∧
    platDecode p 0x9041678004400100 = some (.dmg p { tag := 0, tk := 5, enter := true, exit := false, rb := 15, rsv := 0, g2 := 0x04400100 }) ∧
    platDecode p 0xE000000000000000 = none ∧ platDecode p 0x0500000000000000 = none

/-- The host commands (R617): decoding the opcode and operand bytes of a well-formed command gives that command, with every operand at
every value. -/
def Obligations.HostRoundTrip : Prop :=
  ∀ (i : Instr) (m : MgmtHdr) (op : Nat) (b : List Byte), i.wf = true → hostEncode i = some (m, op, b) → hostCommand m op b = some i

/-- An instruction of Plat changes its own parcel alone, whatever it does (R28, R168); in it the bank that does not run stays, and of the
bank that runs every register but the destination (FRET, which changes banks, may let a wait of the image end). -/
def Obligations.SweeperFrame : Prop :=
  ∀ (s t : State) (i : Instr) (p : Pid) (w : BitVec 64), platEncode i = some (p, w) → exec i s = .next t →
    s.onlyParcel t p ∧
    ((∀ o, i ≠ .fret p o) →
      (t.parcel p).swp.fw = (s.parcel p).swp.fw ∧
      (∀ k, destScalar i ≠ some k → (t.parcel p).gReg k = (s.parcel p).gReg k) ∧ (t.parcel p).gReg 0 = 0 ∧
      (∀ k, destVector i ≠ some k → (t.parcel p).vReg k = (s.parcel p).vReg k) ∧
      ((s.parcel p).swp.fw = true → (t.parcel p).swp.g = (s.parcel p).swp.g ∧ (t.parcel p).swp.v = (s.parcel p).swp.v ∧
        (t.parcel p).swp.pc = (s.parcel p).swp.pc) ∧
      ((s.parcel p).swp.fw = false → (t.parcel p).swp.fg = (s.parcel p).swp.fg ∧ (t.parcel p).swp.fv = (s.parcel p).swp.fv ∧
        (t.parcel p).swp.fpc = (s.parcel p).swp.fpc))

/-- What an instruction of Plat leaves of its parcel's SRAM as it issues: all of it, but for the bytes that `storeRange` computes from the
registers for the forms that store (R183, R188, R189). -/
def Obligations.StoreFrame : Prop :=
  ∀ (s t : State) (i : Instr) (p : Pid) (w : BitVec 64), platEncode i = some (p, w) → exec i s = .next t →
    (storeRange (s.parcel p) i = none → (t.parcel p).sram = (s.parcel p).sram) ∧
    (∀ a n, storeRange (s.parcel p) i = some (a, n) → ∀ x, x < a ∨ a + n ≤ x → (t.parcel p).read x 1 = (s.parcel p).read x 1) ∧
    (t.parcel p).map = (s.parcel p).map ∧ (t.parcel p).meter.ration = (s.parcel p).meter.ration ∧
    (t.parcel p).meter.eff = (s.parcel p).meter.eff ∧ (t.parcel p).kv = (s.parcel p).kv

/-! ### The sweeper -/

/-- The sixteen ALU instructions of two operands that need no case of zero, and the four divisions (R181): each completes, g[RD] takes the
value of the rule's table, the next instruction follows. CLZ and POPC (R181): with operand b the register g0 each completes with the
count; with any other operand b the word is ILLEGAL. -/
def Obligations.AluResults : Prop :=
  (∀ (s : State) (p : Pid) (o : AluOps), s.canIssue p 0 = true → o.rsv = 0 →
    let ps := s.parcel p
    let a := ps.gReg o.rs1.toNat
    let b := if o.immf then o.imm.signExtend 64 else ps.gReg o.rs2.toNat
    let gives := fun (i : Instr) (v : Word) =>
      exec i s = .next (s.afterIssue p 0 (ps.setG o.rd.toNat v) ((ps.pc + 8) % 2 ^ 64))
    gives (.add p o) (a + b) ∧ gives (.sub p o) (a - b) ∧ gives (.and p o) (a &&& b) ∧ gives (.or p o) (a ||| b) ∧
    gives (.xor p o) (a ^^^ b) ∧ gives (.sll p o) (a <<< (b.toNat % 64)) ∧ gives (.srl p o) (a >>> (b.toNat % 64)) ∧
    gives (.sra p o) (a.sshiftRight (b.toNat % 64)) ∧
    gives (.slt p o) (if a.toInt < b.toInt then 1 else 0) ∧ gives (.sltu p o) (if a.toNat < b.toNat then 1 else 0) ∧
    gives (.min p o) (BitVec.ofInt 64 (Min.min a.toInt b.toInt)) ∧ gives (.max p o) (BitVec.ofInt 64 (Max.max a.toInt b.toInt)) ∧
    gives (.mul p o) (BitVec.ofInt 64 (a.toInt * b.toInt)) ∧
    gives (.mulh p o) (BitVec.ofInt 64 (a.toInt * b.toInt / 2 ^ 64)) ∧
    gives (.div p o) (if b = 0 then BitVec.allOnes 64 else a.sdiv b) ∧
    gives (.divu p o) (if b = 0 then BitVec.allOnes 64 else a.udiv b) ∧
    gives (.rem p o) (if b = 0 then a else a.srem b) ∧
    gives (.remu p o) (if b = 0 then a else a.umod b)) ∧
  (∀ (s : State) (p : Pid) (o : AluOps), o.rsv = 0 →
    let ps := s.parcel p
    let a := ps.gReg o.rs1.toNat
    (s.canIssue p 0 = true → o.immf = false → o.rs2 = 0 →
      (∃ n : Nat, exec (.clz p o) s =
          .next (s.afterIssue p 0 (ps.setG o.rd.toNat (BitVec.ofNat 64 n)) ((ps.pc + 8) % 2 ^ 64)) ∧
        n ≤ 64 ∧ a.toNat < 2 ^ (64 - n) ∧ (n < 64 → 2 ^ (63 - n) ≤ a.toNat)) ∧
      exec (.popc p o) s = .next (s.afterIssue p 0 (ps.setG o.rd.toNat
        (BitVec.ofNat 64 ((List.range 64).filter (fun i => a.getLsbD i)).length)) ((ps.pc + 8) % 2 ^ 64))) ∧
    (s.atInstr p = true → (o.immf = true ∨ o.rs2 ≠ 0) →
      exec (.clz p o) s = .next (s.afterExc p 1) ∧ exec (.popc p o) s = .next (s.afterExc p 1)))

/-- LI and LHI as R182 states them, the ILLEGAL form of LHI with them. -/
def Obligations.ImmResults : Prop :=
  ∀ (s : State) (p : Pid) (o : ImmOps), o.rsv = 0 →
    let ps := s.parcel p
    let g := ps.gReg o.rd.toNat
    (s.canIssue p 0 = true →
      exec (.li p o) s = .next (s.afterIssue p 0 (ps.setG o.rd.toNat (o.imm.signExtend 64)) ((ps.pc + 8) % 2 ^ 64))) ∧
    (s.canIssue p 0 = true → o.imm.toNat < 2 ^ 16 →
      exec (.lhi p o) s = .next (s.afterIssue p 0
        (ps.setG o.rd.toNat ((o.imm.extractLsb' 0 16) ++ (g.extractLsb' 0 48))) ((ps.pc + 8) % 2 ^ 64))) ∧
    (s.atInstr p = true → 2 ^ 16 ≤ o.imm.toNat → exec (.lhi p o) s = .next (s.afterExc p 1) ∧
      ∀ n : Nat, ((s.parcel p).precise 1).gReg n = ps.gReg n)

/-- The loads of R183: the bytes at g[RB] + OFF32, sign- or zero-extended into g[RD], or 1,024 of them into v[RD]. The stores of R183
where the address is aligned and open to stores (R172, R173): the low bytes of g[RD], or v[RD], at g[RB] + OFF32. Where the manual leaves
it to the model: log 103. -/
def Obligations.MemResults : Prop :=
  (∀ (s : State) (p : Pid) (o : MemOps), o.rsv = 0 →
    let ps := s.parcel p
    let a := (ps.gReg o.rb.toNat + o.off.signExtend 64).toNat
    let open_ := fun (n al : Nat) => a % al = 0 ∧ a + n ≤ (if ps.swp.fw then 0x600000 else 0x568000)
    let gives := fun (i : Instr) (n : Nat) (v : Word) => s.canIssue p 0 = true → open_ n n →
      exec i s = .next (s.afterIssue p 0 (ps.setG o.rd.toNat v) ((ps.pc + 8) % 2 ^ 64))
    gives (.ld8s p o) 1 (BitVec.ofInt 64 (leInt (ps.read a 1))) ∧ gives (.ld8u p o) 1 (BitVec.ofNat 64 (leNat (ps.read a 1))) ∧
    gives (.ld16s p o) 2 (BitVec.ofInt 64 (leInt (ps.read a 2))) ∧ gives (.ld16u p o) 2 (BitVec.ofNat 64 (leNat (ps.read a 2))) ∧
    gives (.ld32s p o) 4 (BitVec.ofInt 64 (leInt (ps.read a 4))) ∧ gives (.ld32u p o) 4 (BitVec.ofNat 64 (leNat (ps.read a 4))) ∧
    gives (.ld64 p o) 8 (BitVec.ofNat 64 (leNat (ps.read a 8))) ∧
    (s.canIssue p 1 = true → o.rd.toNat < 8 → open_ 1024 8 →
      exec (.vld p o) s = .next (s.afterIssue p 1
        (ps.setV o.rd.toNat (BitVec.ofNat 8192 (leNat (ps.read a 1024)))) ((ps.pc + 8) % 2 ^ 64)))) ∧
  (∀ (s : State) (p : Pid) (o : MemOps), o.rsv = 0 →
    let ps := s.parcel p
    let a := (ps.gReg o.rb.toNat + o.off.signExtend 64).toNat
    let gives := fun (i : Instr) (n : Nat) => s.canIssue p 0 = true → storeCheck ps a n n = none →
      exec i s = .next (s.afterIssue p 0 (ps.write a (leBytes (ps.gReg o.rd.toNat).toNat n)) ((ps.pc + 8) % 2 ^ 64))
    gives (.st8 p o) 1 ∧ gives (.st16 p o) 2 ∧ gives (.st32 p o) 4 ∧ gives (.st64 p o) 8 ∧
    (s.canIssue p 1 = true → o.rd.toNat < 8 → storeCheck ps a 1024 8 = none →
      exec (.vst p o) s = .next (s.afterIssue p 1
        (ps.write a (leBytes (ps.vReg o.rd.toNat).toNat 1024)) ((ps.pc + 8) % 2 ^ 64))))

/-- The exceptions of loads and stores (R173): a load that is misaligned or outside what the bank may read raises ADDRESS; a store that is
misaligned or runs past SRAM raises ADDRESS, into image code CODE_WRITE, elsewhere outside the areas open to stores ADDRESS. Where the
manual leaves it to the model: log 103. -/
def Obligations.AccessExceptions : Prop :=
  ∀ (s : State) (p : Pid) (o : MemOps), s.atInstr p = true → o.rsv = 0 →
    let ps := s.parcel p
    let a := (ps.gReg o.rb.toNat + o.off.signExtend 64).toNat
    let badLoad := fun (n al : Nat) => a % al ≠ 0 ∨ (if ps.swp.fw then 0x600000 else 0x568000) < a + n
    let cause := fun (n al : Nat) (c : Nat) =>
      (c = 2 ∧ (a % al ≠ 0 ∨ 0x600000 < a + n)) ∨
      (a % al = 0 ∧ a + n ≤ 0x600000 ∧ a < 0x550000 ∧ 0x530000 < a + n ∧ c = 3) ∨
      (a % al = 0 ∧ a + n ≤ 0x600000 ∧ (0x550000 ≤ a ∨ a + n ≤ 0x530000) ∧ ps.storeOpen ps.swp.fw a n = false ∧ c = 2)
    (badLoad 1 1 → exec (.ld8s p o) s = .next (s.afterExc p 2) ∧ exec (.ld8u p o) s = .next (s.afterExc p 2)) ∧
    (badLoad 2 2 → exec (.ld16s p o) s = .next (s.afterExc p 2) ∧ exec (.ld16u p o) s = .next (s.afterExc p 2)) ∧
    (badLoad 4 4 → exec (.ld32s p o) s = .next (s.afterExc p 2) ∧ exec (.ld32u p o) s = .next (s.afterExc p 2)) ∧
    (badLoad 8 8 → exec (.ld64 p o) s = .next (s.afterExc p 2)) ∧
    (o.rd.toNat < 8 → badLoad 1024 8 → exec (.vld p o) s = .next (s.afterExc p 2)) ∧
    (∀ c : Nat, (cause 1 1 c → exec (.st8 p o) s = .next (s.afterExc p c)) ∧
      (cause 2 2 c → exec (.st16 p o) s = .next (s.afterExc p c)) ∧
      (cause 4 4 c → exec (.st32 p o) s = .next (s.afterExc p c)) ∧
      (cause 8 8 c → exec (.st64 p o) s = .next (s.afterExc p c)) ∧
      (o.rd.toNat < 8 → cause 1024 8 c → exec (.vst p o) s = .next (s.afterExc p c)))

/-- The branches of R184: the PC after each, and the link register of JAL and JALR; a misaligned OFF32 is ILLEGAL but in JALR. -/
def Obligations.BranchResults : Prop :=
  ∀ (s : State) (p : Pid) (o : BrOps), o.rsv = 0 →
    let ps := s.parcel p
    let a := ps.gReg o.rs1.toNat
    let b := ps.gReg o.rs2.toNat
    let seq := (ps.pc + 8) % 2 ^ 64
    let target := (BitVec.ofNat 64 ps.pc + o.off.signExtend 64).toNat
    let linked := ps.setG o.rd.toNat (BitVec.ofNat 64 seq)
    let goes := fun (i : Instr) (c : Prop) (_ : Decidable c) =>
      exec i s = .next (s.afterIssue p 0 ps (if c then target else seq))
    (s.canIssue p 0 = true → o.off.toNat % 8 = 0 →
      goes (.beq p o) (a = b) inferInstance ∧ goes (.bne p o) (a ≠ b) inferInstance ∧
      goes (.blt p o) (a.toInt < b.toInt) inferInstance ∧ goes (.bge p o) (b.toInt ≤ a.toInt) inferInstance ∧
      goes (.bltu p o) (a.toNat < b.toNat) inferInstance ∧ goes (.bgeu p o) (b.toNat ≤ a.toNat) inferInstance ∧
      exec (.jal p o) s = .next (s.afterIssue p 0 linked target)) ∧
    (s.canIssue p 0 = true →
      exec (.jalr p o) s = .next (s.afterIssue p 0 linked
        (8 * ((a + o.off.signExtend 64).toNat / 8)))) ∧
    (s.atInstr p = true → o.off.toNat % 8 ≠ 0 →
      ∀ i ∈ [Instr.beq p o, .bne p o, .blt p o, .bge p o, .bltu p o, .bgeu p o, .jal p o], exec i s = .next (s.afterExc p 1))

/-- The vector instructions, element by element (R185, R186): at an integer ET the sum, difference, product, signed minimum and maximum of
each pair of lanes, wrapped; at binary32 the rounded operation; lanes of the second operand come from v[VS2] or from g[RS]. The reductions
(R185, R186, R639): VRMAX of integers is the greatest lane, sign-extended; VRSUM of integers is the exact sum of the lanes modulo two to
the 64; at binary32 VRMAX folds the lanes in order and VRSUM adds them in the fixed tree, and g[RD] holds the result in its low half. An
ET above 3, or an integer ET for a binary32-only instruction, is an operand exception. -/
def Obligations.VecResults : Prop :=
  (∀ (s : State) (p : Pid) (o : VecOps), s.canIssue p 1 = true → o.rsv = 0 →
    let ps := s.parcel p
    let lane := fun (w i : Nat) (x : VReg) => x.extractLsb' (w * i) w
    let a := fun (w i : Nat) => lane w i (ps.vReg o.vs1.toNat)
    let b := fun (w i : Nat) => if o.sc then (ps.gReg o.rs.toNat).setWidth w else lane w i (ps.vReg o.vs2.toNat)
    let writes := fun (i : Instr) (w : Nat) (f : Nat → BitVec w) =>
      ∃ x : VReg, exec i s = .next (s.afterIssue p 1 (ps.setV o.vd.toNat x) ((ps.pc + 8) % 2 ^ 64)) ∧
        ∀ j, j < 8192 / w → lane w j x = f j
    (∀ w, (o.et = 0 ∧ w = 8) ∨ (o.et = 1 ∧ w = 16) ∨ (o.et = 2 ∧ w = 32) →
      writes (.vadd p o) w (fun j => a w j + b w j) ∧ writes (.vsub p o) w (fun j => a w j - b w j) ∧
      writes (.vmul p o) w (fun j => a w j * b w j) ∧
      writes (.vmin p o) w (fun j => BitVec.ofInt w (Min.min (a w j).toInt (b w j).toInt)) ∧
      writes (.vmax p o) w (fun j => BitVec.ofInt w (Max.max (a w j).toInt (b w j).toInt)) ∧
      writes (.vmov p o) w (fun j => if o.sc then b w j else a w j)) ∧
    (o.et = 3 →
      writes (.vadd p o) 32 (fun j => f32Add (a 32 j) (b 32 j)) ∧ writes (.vsub p o) 32 (fun j => f32Sub (a 32 j) (b 32 j)) ∧
      writes (.vmul p o) 32 (fun j => f32Mul (a 32 j) (b 32 j)) ∧ writes (.vmin p o) 32 (fun j => f32Min (a 32 j) (b 32 j)) ∧
      writes (.vmax p o) 32 (fun j => f32Max (a 32 j) (b 32 j)) ∧ writes (.vdiv p o) 32 (fun j => f32Div (a 32 j) (b 32 j)) ∧
      writes (.vfma p o) 32 (fun j => f32Fma (lane 32 j (ps.vReg o.vd.toNat)) (a 32 j) (b 32 j)) ∧
      writes (.vexp p o) 32 (fun j => f32Exp (a 32 j)) ∧ writes (.vsqrt p o) 32 (fun j => f32Sqrt (a 32 j)) ∧
      writes (.vmov p o) 32 (fun j => if o.sc then b 32 j else a 32 j))) ∧
  (∀ (s : State) (p : Pid) (o : VecOps), o.rsv = 0 →
    let ps := s.parcel p
    let a := fun (w i : Nat) => (ps.vReg o.vs1.toNat).extractLsb' (w * i) w
    let writes := fun (i : Instr) (v : Word) =>
      exec i s = .next (s.afterIssue p 1 (ps.setG o.rd.toNat v) ((ps.pc + 8) % 2 ^ 64))
    (s.canIssue p 1 = true → ∀ w, (o.et = 0 ∧ w = 8) ∨ (o.et = 1 ∧ w = 16) ∨ (o.et = 2 ∧ w = 32) →
      (∃ v : Word, writes (.vrmax p o) v ∧ (∀ j, j < 8192 / w → (a w j).toInt ≤ v.toInt) ∧
        ∃ j, j < 8192 / w ∧ v.toInt = (a w j).toInt) ∧
      writes (.vrsum p o) (BitVec.ofInt 64 ((List.range (8192 / w)).map (fun j => (a w j).toInt)).sum)) ∧
    (s.canIssue p 1 = true → o.et = 3 →
      writes (.vrmax p o) ((((List.range 255).map (fun j => a 32 (j + 1))).foldl f32Max (a 32 0)).setWidth 64) ∧
      ∃ r : F32, treeSum 8 ((List.range 256).map (a 32)) = [r] ∧ writes (.vrsum p o) (r.setWidth 64)) ∧
    (s.atInstr p = true →
      (3 < o.et.toNat → ∀ i ∈ [Instr.vadd p o, .vsub p o, .vmul p o, .vmin p o, .vmax p o, .vrmax p o, .vrsum p o, .vmov p o],
        exec i s = .next (s.afterExc p 5)) ∧
      (o.et ≠ 3 → ∀ i ∈ [Instr.vdiv p o, .vfma p o, .vexp p o, .vsqrt p o], exec i s = .next (s.afterExc p 5))))

/-- CVT (R187, R188, R638): with good operands the converted bytes are written at g[RB], or with WIDTH the 1,024 codes and the scale byte,
and their events counted against TAG; a count of 0 writes and counts nothing; an operand that breaks a rule (a count above 2^20, a
reserved format, an SR or WIDTH rule, a range outside the bank's areas, an alignment, overlapping ranges) raises SWEEPER_OPERAND with the
instruction's TAG and no effect. Where the manual leaves it to the model: log 123. -/
def Obligations.CvtResult : Prop :=
  ∀ (s : State) (p : Pid) (o : CvtOps), o.rsv = 0 →
    let ps := s.parcel p
    let src := (ps.gReg o.ra.toNat).toNat
    let dst := (ps.gReg o.rb.toNat).toNat
    let n := (ps.gReg o.rn.toNat).toNat
    let read := fmtBytes o.sf.toNat n
    let written := if o.width = 0 then fmtBytes o.df.toNat n else 1025
    let rules := n ≤ 2 ^ 20 ∧ o.sf.toNat ≤ 11 ∧ o.df.toNat ≤ 11 ∧ (o.sr = true → fmtBlockScaled o.df.toNat = true) ∧
      o.width.toNat ≤ 8 ∧ (o.width ≠ 0 → o.df = 0 ∧ n = 1024)
    let ranges := (read ≠ 0 → src % fmtAlign o.sf.toNat = 0 ∧ loadOpen ps.swp.fw src read = true) ∧
      (written ≠ 0 → dst % fmtAlign o.df.toNat = 0 ∧ ps.storeOpen ps.swp.fw dst written = true) ∧
      overlap src read dst written = false
    let xs := decodeSeq o.sf.toNat n (ps.read src read)
    let gives := fun (bs : List Byte) (ev : Ev) =>
      exec (.cvt p o) s = .next (s.afterIssue p 2 ((ps.write dst bs).count o.tag.toNat ev) ((ps.pc + 8) % 2 ^ 64))
    (s.canIssue p 2 = true → rules → ranges →
      (n = 0 → exec (.cvt p o) s = .next (s.afterIssue p 2 ps ((ps.pc + 8) % 2 ^ 64))) ∧
      (n ≠ 0 → o.width = 0 → o.sr = false → gives (cvtSeq o.df.toNat none xs).1 (cvtSeq o.df.toNat none xs).2) ∧
      (n ≠ 0 → o.width = 0 → o.sr = true →
        let sr : Sr := { key := ps.gReg o.rk.toNat, base := ps.gReg o.rbs.toNat }
        gives (cvtSeq o.df.toNat (some sr) xs).1 (cvtSeq o.df.toNat (some sr) xs).2) ∧
      (o.width ≠ 0 →
        let r := stageVec o.width.toNat o.sf.toNat (ps.read src read)
        gives (r.1.flatMap (fun c => intBytes c 1) ++ [BitVec.ofNat 8 r.2.1]) r.2.2)) ∧
    (s.atInstr p = true → ¬ (rules ∧ ranges) → exec (.cvt p o) s = .next (s.afterExc p 5 o.tag.toNat))

/-- SMAX (R189, R640): over n binary32 values at g[RS1] it answers the lowest index of a greatest value that is no NaN, and −1 where there
is none. STOPK, SCUM, SWORD and SPEN (R189, R160, R640) with readable and writable ranges. -/
def Obligations.SamplingResults : Prop :=
  (∀ (s : State) (p : Pid) (o : SmpOps), s.canIssue p 2 = true → o.rsv = 0 →
    let ps := s.parcel p
    let a := (ps.gReg o.rs1.toNat).toNat
    let n := (ps.gReg o.rs2.toNat).toNat
    let x := fun (i : Nat) => BitVec.ofNat 32 (leNat (ps.read (a + 4 * i) 4))
    n = 0 ∨ (a % 4 = 0 ∧ loadOpen ps.swp.fw a (4 * n) = true) →
      ∃ v : Word, exec (.smax p o) s = .next (s.afterIssue p 2 (ps.setG o.rd.toNat v) ((ps.pc + 8) % 2 ^ 64)) ∧
        ((∀ i, i < n → f32IsNan (x i) = true) → v = BitVec.allOnes 64) ∧
        ((∃ i, i < n ∧ f32IsNan (x i) = false) →
          v.toNat < n ∧ f32IsNan (x v.toNat) = false ∧
          ∀ j, j < n → f32IsNan (x j) = false →
            f32Key (x j) < f32Key (x v.toNat) ∨ (f32Key (x j) = f32Key (x v.toNat) ∧ v.toNat ≤ j))) ∧
  (∀ (s : State) (p : Pid) (o : SmpOps), s.canIssue p 2 = true → o.rsv = 0 →
    let ps := s.parcel p
    let a := (ps.gReg o.rs1.toNat).toNat
    let n := (ps.gReg o.rs2.toNat).toNat
    let l := (ps.gReg o.rs3.toNat).toNat
    let m := (ps.gReg o.rd.toNat).toNat / 2 ^ 32
    let k := o.km1.toNat + 1
    let vs := words32 (ps.read a (4 * n))
    let gives := fun (i : Instr) (ps' : ParcelState) => exec i s = .next (s.afterIssue p 2 ps' ((ps.pc + 8) % 2 ^ 64))
    (readable ps a (4 * n) 4 = true → writable ps l (8 * k) 4 = true →
      gives (.stopk p o) (ps.write l ((topK k (cands vs)).flatMap candBytes ++
        (List.replicate (k - (topK k (cands vs)).length) missingBytes).flatten))) ∧
    (readable ps a (4 * n) 4 = true → writable ps a (4 * n) 4 = true →
      gives (.scum p o) ((ps.write a (bytes32 (scum vs))).setG o.rd.toNat (((scum vs).getLastD 0).setWidth 64))) ∧
    gives (.sword p o) (ps.setG o.rd.toNat (mix (mix (ps.gReg o.rs2.toNat) ^^^ ps.gReg o.rs1.toNat))) ∧
    (readable ps l (4 * n) 4 = true → readable ps a (4 * m) 4 = true → writable ps a (4 * m) 4 = true →
      gives (.spen p o) (penaliseAll a ((ps.gReg o.rd.toNat).setWidth 32) ps
        (penaltyIndices m ((chunks 4 n (ps.read l (4 * n))).map leInt)))))

/-- NOP, CSRR, CSRW, EVPOP and EVPOST (R190, R191): the CSRs that read, SCRATCH0 to SCRATCH3 that are written, the exceptions of the
others; EVPOP takes the oldest image event or answers 0; EVPOST puts g[RS] into the warden's queue while it has room. EVWAIT, FENCE and
WAITQ in the image bank (R190, R228): the instruction issues; where its condition holds it ends at once, else the bank waits. In the
firmware bank an instruction whose condition does not hold counts a blocked cycle. The firmware bank (R170, R192): at FW = 0 a parcel
takes the oldest firmware event and enters the bank at the entry its firmware store has for it; FRET leaves the bank for the image's PC;
FRET at FW = 0 is ILLEGAL (R179). An exception of the image's next instruction comes before an event (R201); under a STOP only recompute
events are taken (R28). Where the manual leaves it to the model: logs 19, 99, 124. -/
def Obligations.SysResults : Prop :=
  (∀ (s : State) (p : Pid) (o : SysOps), o.rsv = 0 →
    let ps := s.parcel p
    let n := o.csr.toNat
    let gives := fun (i : Instr) (ps' : ParcelState) => exec i s = .next (s.afterIssue p 0 ps' ((ps.pc + 8) % 2 ^ 64))
    let reads := fun (v : Word) => gives (.csrr p o) (ps.setG o.rd.toNat v)
    (s.canIssue p 0 = true →
      gives (.nop p o) ps ∧
      (n < 16 → reads (Sparse.get 0 ps.swp.param n)) ∧
      (n = 0x10 → reads (BitVec.ofNat 64 ps.swp.cycle)) ∧ (n = 0x11 → reads (BitVec.ofNat 64 s.time.ns)) ∧
      (n = 0x12 → reads ps.swp.step) ∧ (n = 0x13 → reads (BitVec.ofNat 64 ps.swp.events.length)) ∧
      (0x14 ≤ n → n ≤ 0x17 → reads (Sparse.get 0 ps.swp.scratch (n - 0x14)) ∧
        gives (.csrw p o) { ps with swp := { ps.swp with
          scratch := Sparse.put ps.swp.scratch (n - 0x14) (ps.gReg o.rs.toNat) } }) ∧
      (n = 0x18 → reads (if ps.swp.fw then 1 else 0)) ∧
      (ps.swp.events.all isFwEvent = true → gives (.evpop p o) (ps.setG o.rd.toNat 0)) ∧
      (∀ (l r : List Word) (e : Word), ps.swp.events = l ++ e :: r → l.all isFwEvent = true → isFwEvent e = false →
        gives (.evpop p o) (({ ps with swp := { ps.swp with events := l ++ r } }).setG o.rd.toNat e).wake) ∧
      (s.wardenQueue p.d < 256 → gives (.evpost p o) { ps with reports := ps.reports ++ [.post (ps.gReg o.rs.toNat)] })) ∧
    (s.atInstr p = true →
      (0x100 ≤ n → n ≤ 0x1FF → exec (.csrr p o) s = .next (s.afterExc p 4) ∧ exec (.csrw p o) s = .next (s.afterExc p 4)) ∧
      (n ≤ 0x13 ∨ n = 0x18 → exec (.csrw p o) s = .next (s.afterExc p 4)) ∧
      ((0x19 ≤ n ∧ n ≤ 0xFF) ∨ 0x200 ≤ n →
        exec (.csrr p o) s = .next (s.afterExc p 1) ∧ exec (.csrw p o) s = .next (s.afterExc p 1)))) ∧
  (∀ (s : State) (p : Pid) (o : SysOps) (w : WaitOps), s.canIssue p 0 = true → o.rsv = 0 →
    w.rsv = 0 → w.tag = 0 → w.tk = 0 →
    let ps := s.parcel p
    let gives := fun (i : Instr) (ps' : ParcelState) => exec i s = .next (s.afterIssue p 0 ps' ((ps.pc + 8) % 2 ^ 64))
    let waits := fun (x : Wait) => { ps with swp := { ps.swp with wait := some x } }
    let drained := fun (m : BitVec 16) => ∀ k, k < 16 → m.getLsbD k = true → ps.token k = 0
    (drained w.mask → gives (.waitq p w) ps) ∧
    (¬ drained w.mask → ps.swp.fw = false → gives (.waitq p w) (waits (.tokens w.mask))) ∧
    (drained (BitVec.allOnes 16) → gives (.fence p o) ps) ∧
    (¬ drained (BitVec.allOnes 16) → ps.swp.fw = false → gives (.fence p o) (waits .fence)) ∧
    (∀ (l r : List Word) (e : Word), ps.swp.events = l ++ e :: r → l.all isFwEvent = true → isFwEvent e = false →
      let q := admitPosts (l ++ r) ps.swp.postWaiting
      gives (.evwait p o) (({ ps with swp := { ps.swp with events := q.1, postWaiting := q.2 } }).setG o.rd.toNat e)) ∧
    (ps.swp.events.all isFwEvent = true → ps.swp.fw = false → gives (.evwait p o) (waits (.event o.rd.toNat))) ∧
    (ps.swp.fw = true →
      (¬ drained w.mask → exec (.waitq p w) s = .next (s.setParcel p ps.stallDep)) ∧
      (¬ drained (BitVec.allOnes 16) → exec (.fence p o) s = .next (s.setParcel p ps.stallDep)) ∧
      (ps.swp.events.all isFwEvent = true → exec (.evwait p o) s = .next (s.setParcel p ps.stallDep)))) ∧
  (∀ (s : State) (p : Pid) (o : SysOps),
    let ps := s.parcel p
    (s.running p = true → ps.swp.inReset = false → ps.swp.halted = false → ps.health.bollard = false → ps.swp.fw = false →
      let takes := fun (x : Word) => isFwEvent x && (!ps.swp.stopped || isRecompute x)
      (s.nextRaises p = true → exec (.firmwareEventTake p) s = .next s) ∧
      (∀ (l r : List Word) (e : Word), s.nextRaises p = false → ps.swp.events = l ++ e :: r → l.all (fun x => !takes x) = true →
        takes e = true →
        let s1 := s.setParcel p { ps with swp := { ps.swp with
          events := l ++ r, fw := true, fwEvent := e, fpc := Config.fwEntry e } }
        exec (.firmwareEventTake p) s = .next ((s1.startRoutine p e).modParcel p ParcelState.wake) ∧
        (isRecompute e = false → s1.startRoutine p e = s1))) ∧
    (s.canIssue p 0 = true → o.rsv = 0 → ps.swp.fw = true →
      exec (.fret p o) s = .next (s.afterIssue p 0
        (ParcelState.wake { ps with swp := { ps.swp with fw := false, fwEvent := 0 } }) ps.swp.pc)) ∧
    (s.atInstr p = true → ps.swp.fw = false → exec (.fret p o) s = .next (s.afterExc p 1)))

/-- HINT as R233 states it: the forecast of DRAW for DUR windows replaces the one in force, DUR = 0 cancels it, a DRAW above 320 is read
as 320, and admission, ration and clock stay as they are; HINT_EXPIRY ends the forecast. -/
def Obligations.HintForecast : Prop :=
  ∀ (s : State) (p : Pid) (o : HintOps),
    let ps := s.parcel p
    let forecast := fun (draw dur : Nat) => { ps with meter := { ps.meter with forecast := draw, forecastWindows := dur } }
    (s.canIssue p 0 = true → o.rsvHi = 0 → o.rsv = 0 →
      exec (.hint p o) s = .next (s.afterIssue p 0
        (forecast (if o.dur = 0 then 0 else if 320 < o.draw.toNat then 320 else o.draw.toNat) o.dur.toNat) ((ps.pc + 8) % 2 ^ 64))) ∧
    exec (.hintExpiry p) s = .next (s.setParcel p (forecast 0 0)) ∧
    (∀ w, platEncode (.hint p o) = some (p, w) → w.extractLsb' 34 12 = o.draw ∧ w.extractLsb' 18 16 = o.dur) ∧
    (∀ draw dur, (forecast draw dur).meter.eff = ps.meter.eff ∧ (forecast draw dur).meter.ration = ps.meter.ration ∧
      (forecast draw dur).meter.modeApplied = ps.meter.modeApplied ∧ ∀ c, (forecast draw dur).admits c = ps.admits c)

/-- A word with a nonzero reserved field is ILLEGAL in every layout (R179, R228), recorded with the word's TAG in the layouts that have one
(R202). Where the manual leaves it to the model: log 104. -/
def Obligations.ReservedFields : Prop :=
  ∀ (s : State) (p : Pid), s.atInstr p = true →
    let badTag := fun (tag : BitVec 4) (l : List Instr) => ∀ i ∈ l, exec i s = .next (s.afterExc p 1 tag.toNat)
    let bad := badTag 0
    (∀ o : AluOps, o.rsv ≠ 0 → bad [.add p o, .sub p o, .and p o, .or p o, .xor p o, .sll p o, .srl p o, .sra p o, .slt p o,
      .sltu p o, .min p o, .max p o, .mul p o, .mulh p o, .div p o, .divu p o, .rem p o, .remu p o, .clz p o, .popc p o]) ∧
    (∀ o : ImmOps, o.rsv ≠ 0 → bad [.li p o, .lhi p o]) ∧
    (∀ o : MemOps, o.rsv ≠ 0 → bad [.ld8s p o, .ld8u p o, .ld16s p o, .ld16u p o, .ld32s p o, .ld32u p o, .ld64 p o, .st8 p o,
      .st16 p o, .st32 p o, .st64 p o, .vld p o, .vst p o]) ∧
    (∀ o : MemOps, 8 ≤ o.rd.toNat → bad [.vld p o, .vst p o]) ∧
    (∀ o : BrOps, o.rsv ≠ 0 → bad [.beq p o, .bne p o, .blt p o, .bge p o, .bltu p o, .bgeu p o, .jal p o, .jalr p o]) ∧
    (∀ o : VecOps, o.rsv ≠ 0 → bad [.vadd p o, .vsub p o, .vmul p o, .vmin p o, .vmax p o, .vdiv p o, .vfma p o, .vexp p o,
      .vsqrt p o, .vrmax p o, .vrsum p o, .vmov p o]) ∧
    (∀ o : CvtOps, o.rsv ≠ 0 → badTag o.tag [.cvt p o]) ∧
    (∀ o : SmpOps, o.rsv ≠ 0 → bad [.smax p o, .stopk p o, .scum p o, .sword p o, .spen p o]) ∧
    (∀ o : SysOps, o.rsv ≠ 0 → bad [.nop p o, .csrr p o, .csrw p o, .evwait p o, .evpop p o, .evpost p o, .fence p o, .fret p o]) ∧
    (∀ o : LmvOps, o.rsv ≠ 0 → badTag o.tag [.lmv p o, .lmva p o]) ∧ (∀ o : DmmOps, o.rsv ≠ 0 → badTag o.tag [.dmm p o]) ∧
    (∀ o : DmgOps, o.rsv ≠ 0 → badTag o.tag [.dmg p o]) ∧ (∀ o : AtsOps, o.rsv ≠ 0 → badTag o.tag [.ats p o]) ∧
    (∀ o : AtvOps, o.rsvHi ≠ 0 ∨ o.rsv ≠ 0 → badTag o.tag [.atv p o]) ∧ (∀ o : AtxOps, o.rsvHi ≠ 0 ∨ o.rsv ≠ 0 → badTag o.tag [.atx p o]) ∧
    (∀ o : KapOps, o.rsvHi ≠ 0 ∨ o.rsv ≠ 0 → badTag o.tag [.kap p o]) ∧ (∀ o : QueOps, o.rsv ≠ 0 → badTag o.tag [.ldq p o, .stq p o]) ∧
    (∀ o : WaitOps, o.rsv ≠ 0 ∨ o.tag ≠ 0 ∨ o.tk ≠ 0 → badTag o.tag [.waitq p o]) ∧ (∀ o : SndOps, o.rsv ≠ 0 → badTag o.tag [.snd p o]) ∧
    (∀ o : RcvOps, o.rsvHi ≠ 0 ∨ o.rsv ≠ 0 → badTag o.tag [.rcv p o]) ∧ (∀ o : McsOps, o.rsvHi ≠ 0 ∨ o.rsv ≠ 0 → badTag o.tag [.mcs p o]) ∧
    (∀ o : HintOps, o.rsvHi ≠ 0 ∨ o.rsv ≠ 0 → bad [.hint p o])

/-! ### Lots, the DME, appends, stacks and lanes -/

/-- Issue of LMV and LMVA (R69, R194, R205, R209): a mapped logical lot's queue of 4 takes the instruction with its registers as read at
issue; an unmapped logical lot is caught at issue and stops the sweeper with LOT = 31; a full queue or token counter counts a blocked
cycle. Issue of DMM, DMG, ATS, ATV and ATX into the DME's queue of 8 (R195, R206), each in its current class with its registers as read at
issue. Issue of KAP, LDQ, STQ, SND, RCV and MCS into their queues of 4, 32, 32 and 16 (R195, R222, R225, R229). Where the manual leaves it
to the model: logs 99, 103. -/
def Obligations.UnitIssue : Prop :=
  (∀ (s : State) (p : Pid) (o : LmvOps), o.rsv = 0 →
    let ps := s.parcel p
    let work := fun (accum : Bool) (l : LotId) => ({
      id := ps.nextId, accum := accum, tag := o.tag, tk := o.tk, logical := o.lot.toNat, phys := l, n := o.nm1.toNat + 1,
      ofmt := o.ofmt.toNat, src := (ps.gReg o.rs.toNat).toNat, dst := (ps.gReg o.rd.toNat).toNat, fw := ps.swp.fw,
      epc := ps.pc } : LmvWork)
    let takes := fun (i : Instr) (accum : Bool) (l : LotId) => exec i s = .next (s.afterIssue p 3
      ((ps.unitTaken 3 o.tk).modLot l.val (fun x => { x with queue := x.queue ++ [work accum l] })) ((ps.pc + 8) % 2 ^ 64))
    let full := fun (i : Instr) => exec i s = .next (s.setParcel p ps.stallQueue)
    (∀ l : LotId, ps.mapEntry o.lot.toNat = some l.val →
      (s.canIssue p 3 = true → ps.token o.tk.toNat < 255 → (ps.lot l.val).queue.length < 4 →
        takes (.lmv p o) false l ∧ takes (.lmva p o) true l) ∧
      (s.atInstr p = true → 255 ≤ ps.token o.tk.toNat ∨ 4 ≤ (ps.lot l.val).queue.length → full (.lmv p o) ∧ full (.lmva p o))) ∧
    (s.canIssue p 3 = true → ps.mapEntry o.lot.toNat = none → ps.token o.tk.toNat < 255 →
      let t := s.afterIssue p 3 (ps.raise 6 1 o.tag.toNat 31 ps.pc ps.swp.fw) ((ps.pc + 8) % 2 ^ 64)
      exec (.lmv p o) s = .next t ∧ exec (.lmva p o) s = .next t)) ∧
  (∀ (s : State) (p : Pid) (m : DmmOps) (g : DmgOps) (q : AtsOps) (v : AtvOps) (x : AtxOps),
    let ps := s.parcel p
    let r := fun (n : BitVec 5) => (ps.gReg n.toNat).toNat
    let takes := fun (i : Instr) (c : Nat) (tag tk : BitVec 4) (op : DmeOp) =>
      (s.canIssue p c = true → ps.token tk.toNat < 255 → ps.dme.queue.length < 8 →
        exec i s = .next (s.afterIssue p c ({ ps.unitTaken c tk with dme := { ps.dme with queue := ps.dme.queue ++
          [{ id := ps.nextId, tag := tag, tk := tk, op := op, fw := ps.swp.fw, epc := ps.pc, behind := ps.dme.behindNow }] } })
          ((ps.pc + 8) % 2 ^ 64))) ∧
      (s.atInstr p = true → 255 ≤ ps.token tk.toNat ∨ 8 ≤ ps.dme.queue.length →
        exec i s = .next (s.setParcel p ps.stallQueue))
    (m.rsv = 0 → takes (.dmm p m) (dmmClass m) m.tag m.tk (.dmm m (r m.rt) (r m.rx) (r m.rd))) ∧
    (g.rsv = 0 → takes (.dmg p g) 12 g.tag g.tk (.dmg g (r g.rb))) ∧
    (q.rsv = 0 → takes (.ats p q) 9 q.tag q.tk (.ats q (r q.rq) (r q.rp) (r q.rd))) ∧
    (v.rsvHi = 0 → v.rsv = 0 → takes (.atv p v) (if v.pf = 5 then 8 else 9) v.tag v.tk (.atv v (r v.rw) (r v.rp) (r v.rd))) ∧
    (x.rsvHi = 0 → x.rsv = 0 → takes (.atx p x) 9 x.tag x.tk (.atx x (r x.rq) (r x.rs) (r x.rd) (ps.gReg x.rn.toNat)))) ∧
  (∀ (s : State) (p : Pid) (k : KapOps) (q : QueOps) (d : SndOps) (v : RcvOps) (m : McsOps),
    let ps := s.parcel p
    let r := fun (n : BitVec 5) => (ps.gReg n.toNat).toNat
    let takes := fun (i : Instr) (c : Nat) (tk : BitVec 4) (room : Bool) (t : ParcelState) =>
      (s.canIssue p c = true → ps.token tk.toNat < 255 → room = true →
        exec i s = .next (s.afterIssue p c t ((ps.pc + 8) % 2 ^ 64))) ∧
      (s.atInstr p = true → 255 ≤ ps.token tk.toNat ∨ room = false → exec i s = .next (s.setParcel p ps.stallQueue))
    let entry := fun (store : Bool) => ({
      id := ps.nextId, order := ps.nextId, store := store, tag := q.tag, tk := q.tk, raw := q.raw, addr := r q.ra,
      n := q.cm1.toNat + 1, sram := r q.rs, fw := ps.swp.fw, epc := ps.pc, started := false, seen := [], sent := 0, acked := 0,
      win := 0 } : QueEntry)
    let lane := fun (tk : BitVec 4) (w : LaneWork) =>
      { ps.unitTaken 6 tk with lane := { ps.lane with queue := ps.lane.queue ++ [w] } }
    (k.rsvHi = 0 → k.rsv = 0 → takes (.kap p k) 4 k.tk ((ps.kapq.filter (fun e => !e.sent)).length < 4)
      { ps.unitTaken 4 k.tk with kapq := ps.kapq ++ [{
        id := ps.nextId, tag := k.tag, tk := k.tk, value := k.kind, src := r k.rs, desc := r k.ra, fw := ps.swp.fw, epc := ps.pc,
        sent := false }] }) ∧
    (q.rsv = 0 → takes (.ldq p q) 5 q.tk (ps.lq.length < 32) { ps.unitTaken 5 q.tk with lq := ps.lq ++ [entry false] } ∧
      takes (.stq p q) 5 q.tk (ps.sq.length < 32) { ps.unitTaken 5 q.tk with sq := ps.sq ++ [entry true] }) ∧
    (d.rsv = 0 → takes (.snd p d) 6 d.tk (ps.lane.queue.length < 16) (lane d.tk
      (.snd ps.nextId d.tag d.tk d.plan d.raw (d.cm1.toNat + 1) d.ch.toNat (r d.rs) (ps.gReg d.rt.toNat) ps.swp.fw ps.pc))) ∧
    (v.rsvHi = 0 → v.rsv = 0 → takes (.rcv p v) 6 v.tk (ps.lane.queue.length < 16) (lane v.tk
      (.rcv ps.nextId v.tag v.tk v.raw (v.cm1.toNat + 1) v.ch.toNat (r v.rd) (ps.gReg v.rt.toNat) ps.swp.fw ps.pc))) ∧
    (m.rsvHi = 0 → m.rsv = 0 → takes (.mcs p m) 6 m.tk (ps.lane.queue.length < 16) (lane m.tk
      (.mcs ps.nextId m.tag m.tk m.raw (m.cm1.toNat + 1) m.ch.toNat (r m.rs) m.tree.toNat ps.swp.fw ps.pc))))

/-- STAGING_FILL and LMV_DRAIN (R205, R209 to R211): the first fill in issue order reads its 1,024 codes and its scale into a free staging
entry; the oldest LMV of the parcel, its output entry complete and at the head of its lot's queue, writes its outputs at its destination
(as binary32 where OFMT is 0 and nothing is accumulated) and its token completes. LMV_START on an idle lot (R64, R68, R71, R100, R102): an
LMV under the NaN scale puts 1,024 quiet NaNs into the output queue and counts one NaN; one whose planes are all empty puts zeros there;
one that forms phases leaves an entry whose correction job is queued to the DME, and with a group that failed its codes are in INPUT_SAVE;
each leaves staging and counts in LMV_DONE. While INPUT_SAVE holds the codes of another LMV, one that meets a failing group stalls with its
snapshot and its input. FLAG_LIMIT_REPORT, DRIFT_FIT and RECOMPUTE_ROUTINE (R91, R101 to R103): a lot that reaches its limit is reported
once; a full drift record is fitted, its two results stored in the correction block; the recomputed groups of an output entry take the
exact sums, the rest of it stays, and 32 DMMs count for each group. Where the manual leaves it to the model: logs 10, 112, 113, 115, 126. -/
def Obligations.LotRuns : Prop :=
  (∀ (s : State) (p : Pid) (l : Nat),
    let ps := s.parcel p
    (∀ w : LmvWork, ps.firstFill = some (l, w) → (ps.lot l).staging.length < 2 →
      (lmvBad w = false → exec (.stagingFill p) s = .next (s.setParcel p (ps.modLot l (fun x => { x with
        queue := x.queue.drop 1
        staging := x.staging ++ [{
          work := w, codes := ps.read w.src 1024, e := (ps.read (w.src + 1024) 1).headD 0 }] })))) ∧
      (lmvBad w = true → exec (.stagingFill p) s = .next (s.setParcel p (ps.lotFault l w)))) ∧
    (∀ (o : OutEntry) (rest : List OutEntry), l < 18 → (ps.lot l).outq = o :: rest → ps.oldestLmv = some o.work.id →
      (∀ m, m < l → ((ps.lot m).outq.head?.map (fun x => x.work.id)) ≠ some o.work.id) → o.complete = true →
      let r := lmvBytes ps o.work o.y
      exec (.lmvDrain p) s = .next (s.setParcel p ((((ps.write o.work.dst r.1).count o.work.tag.toNat r.2).modLot l
        (fun x => { x with outq := rest })).complete o.work.id o.work.tk)) ∧
      (o.work.accum = false → o.work.ofmt = 0 → r = (o.y.flatMap (fun v => leBytes v.toNat 4), {})))) ∧
  (∀ (s : State) (p : Pid) (l : LotId) (ds : List (Nat × Nat × Int)) (st : Staged) (rest : List Staged),
    let ps := s.parcel p
    let x := ps.lot l.val
    x.staging = st :: rest → x.outq.length < 4 → x.stalled = none → (∀ v ∈ x.outq, v.jobDone = true) →
    let phases := formPhases st.work.n st.codes
    ((st.e = 255 ∨ phases = [] ∨ x.saveHeld = none) →
      ∃ ps' : ParcelState, ∃ o : OutEntry, exec (.lmvStart p l ds) s = .next (s.setParcel p ps') ∧
        (ps'.lot l.val).staging = rest ∧ (ps'.lot l.val).outq = x.outq ++ [o] ∧ o.work = st.work ∧
        (ps'.lot l.val).lmvDone = Nat.min (x.lmvDone + 1) (2 ^ 32 - 1) ∧
        (st.e = 255 → o.y = List.replicate 1024 qnan ∧ o.complete = true ∧ (ps'.lot l.val).lmvSkip = x.lmvSkip ∧ ps'.sram = ps.sram ∧
          (Sparse.get {} ps'.tags st.work.tag.toNat).nanOut = Nat.min ((Sparse.get {} ps.tags st.work.tag.toNat).nanOut + 1) 65535) ∧
        (st.e ≠ 255 → phases = [] → o.y = List.replicate 1024 0 ∧ o.complete = true ∧
          (ps'.lot l.val).lmvSkip = Nat.min (x.lmvSkip + 1) (2 ^ 32 - 1) ∧ ps'.sram = ps.sram) ∧
        (st.e ≠ 255 → phases ≠ [] → (ps'.lot l.val).lmvNumber = x.lmvNumber + 1 ∧ o.jobDone = false ∧ o.codes = st.codes ∧
          ps'.dme.jobs = ps.dme.jobs ++ [(st.work.id, st.work.phys)] ∧
          (o.failing = [] → o.recomputed = true ∧ (ps'.lot l.val).saveHeld = none) ∧
          (o.failing ≠ [] → o.recomputed = false ∧ (ps'.lot l.val).saveHeld = some st.work.id))) ∧
    (st.e ≠ 255 → phases ≠ [] → x.saveHeld.isSome = true →
      ∃ ps' : ParcelState, exec (.lmvStart p l ds) s = .next (s.setParcel p ps') ∧
        (ps'.lot l.val).saveHeld = x.saveHeld ∧
        ((∃ o : OutEntry, (ps'.lot l.val).outq = x.outq ++ [o] ∧ o.failing = [] ∧ (ps'.lot l.val).stalled = none) ∨
          (∃ v : StalledLmv, (ps'.lot l.val).stalled = some v ∧ v.st = st ∧ v.sn = snapshot ps l.val ∧ v.r.persist ≠ [] ∧
            (ps'.lot l.val).outq = x.outq ∧ (ps'.lot l.val).staging = x.staging ∧ ps'.sram = ps.sram)))) ∧
  (∀ (s : State) (p : Pid) (l : LotId) (j : Fin 8),
    let ps := s.parcel p
    let x := ps.lot l.val
    (x.cp.flagLimit ≠ 0 → x.cp.flagLimit ≤ x.persistSince → x.reported = false →
      exec (.flagLimitReport p l) s = .next (s.setParcel p
        { ps.setLot l.val { x with reported := true } with reports := ps.reports ++ [.lotFlag l] })) ∧
    (∀ (a r : List FitRec) (f : FitRec), x.fits = a ++ f :: r → a.all (fun g => g.group ≠ j.val) = true → f.group = j.val →
      ∃ ps' : ParcelState, exec (.driftFit p l j) s = .next (s.setParcel p ps') ∧
        let fit := driftFit x.cp.driftMode (ps.cbNat l.val (0x8 + 2 * j.val) 2) f
        ps'.cbNat l.val (0x8 + 2 * j.val) 2 = fit.1 % 2 ^ 16 ∧
        ps'.read (cbBase l.val + 0x18 + 2 * j.val) 2 = intBytes fit.2.1 2 ∧
        (ps'.lot l.val).fits = a ++ r ∧ (ps'.lot l.val).driftUpd = Nat.min (x.driftUpd + 1) 65535) ∧
    (∀ (id a seg : Nat) (o : OutEntry), s.running p = true → ps.recomputing = true → recomputeOf ps.swp.fwEvent = (l.val, id) →
      ps.dme.held = [] → ps.dme.grid = false → x.outq.find? (fun v => v.work.id == id) = some o → x.segment = some (a, seg) →
      o.recomputed = false →
      let ex := exactSum (s.loadedWeight a seg) [] o.work.n ps.swp.recodes
      ∃ t : State, ∃ o' : OutEntry, exec (.recomputeRoutine p) s = .next t ∧ (∀ q : Pid, q ≠ p → t.parcel q = s.parcel q) ∧
        t.stk.mem = s.stk.mem ∧ (t.parcel p).dme.dmmDone = Nat.min (ps.dme.dmmDone + 32 * o.failing.length) (2 ^ 32 - 1) ∧
        ((t.parcel p).lot l.val).outq.find? (fun v => v.work.id == id) = some o' ∧ o'.recomputed = true ∧
        (o.jobDone = false → o'.a.length = o.a.length ∧ ∀ c, c < o.a.length →
          o'.a[c]? = if o.failing.contains (c / 128) then some (ex c) else o.a[c]?) ∧
        (o.jobDone = true → o.y = [] → o'.y = ((o.recompute ex).outputs x).1 ∧ o'.complete = true)))

/-- TILE_FETCH and OPQ_FILL (R117, R124, R195, R213, R636): the next DMM's tile goes into the free shadow buffer and frees its queue entry;
the next vector in issue order goes into the operand queue while its 16 entries have room. DMM_COMPUTE (R114 to R117, R135): with its K
vectors in the operand queue the running DMM multiplies them into the accumulator file, frees its operands, counts in DMM_DONE, and
completes; entries of the other kind under CHAIN raise the operand exception; a vector that is missing at its turn counts once in
OPQ_STALL. Where the manual leaves it to the model: logs 12, 117. -/
def Obligations.DmmRuns : Prop :=
  (∀ (s : State) (p : Pid) (id : Nat) (tag tk : BitVec 4) (o : DmmOps) (rt rx rd epc : Nat) (fw behind : Bool) (rest : List DmeWork),
    let ps := s.parcel p
    let w : DmeWork := { id := id, tag := tag, tk := tk, op := .dmm o rt rx rd, fw := fw, epc := epc, behind := behind }
    (ps.dme.shadow = none → ps.dme.queue = w :: rest → dmmBad fw o rt rx rd = false → ps.dme.grid = false →
      exec (.tileFetch p) s = .next (s.setParcel p { ps with dme := { ps.dme with
        queue := rest
        shadow := some { work := w, tile := ps.read rt (fmtBytes o.tf.toNat 4096) }
        tileStall := if behind && ps.dme.running.isNone && ps.dme.jobs.isEmpty && ps.dme.hasFirst id then
          Nat.min (ps.dme.tileStall + 1) 65535 else ps.dme.tileStall } })) ∧
    (∀ v : Nat, ps.dme.fillOrder.find? (fun u => (ps.dme.nextVector u).isSome) = some w → ps.dme.nextVector w = some v →
      ps.dme.opqFill + (if dmmWide o then 2 else 1) ≤ 16 →
      exec (.opqFill p) s = .next (s.setParcel p { ps with dme := { ps.dme with opq := ps.dme.opq ++ [{
        id := id, v := v, bytes := (readVector ps o.xf.toNat rx v).1, skip := (readVector ps o.xf.toNat rx v).2,
        slots := if dmmWide o then 2 else 1 }] } }))) ∧
  (∀ (s : State) (p : Pid) (f : Fetched) (o : DmmOps) (rt rx rd : Nat),
    let ps := s.parcel p
    let vs := ps.dme.opq.filter (fun v => v.id == f.work.id)
    let tile := (operandElems o.tf.toNat f.tile).take 4096
    let r := dmmVectors o (tileColumns tile) 0 (vs.map (OpVec.elems o)) (ps.dme.acc, elemsEv tile)
    ps.dme.running = some f → f.work.op = .dmm o rt rx rd →
    (vs.length < o.km1.toNat + 1 → exec (.dmmCompute p) s = .next (
      if ps.dme.stallAt = some (f.work.id, vs.length) then s.setParcel p ps
      else s.setParcel p { ps with dme := { ps.dme with
        opqStall := Nat.min (ps.dme.opqStall + 1) 65535, stallAt := some (f.work.id, vs.length) } })) ∧
    (o.km1.toNat + 1 ≤ vs.length → kindClash ps.dme o = true → exec (.dmmCompute p) s = .next (s.setParcel p (ps.dmeFault 7 f.work))) ∧
    (o.km1.toNat + 1 ≤ vs.length → kindClash ps.dme o = false →
      ∃ t : ParcelState, exec (.dmmCompute p) s = .next (s.setParcel p t) ∧ t.dme.acc = r.1 ∧ t.dme.running = none ∧
        t.dme.opq = ps.dme.opq.filter (fun v => v.id ≠ f.work.id) ∧ t.dme.dmmDone = Nat.min (ps.dme.dmmDone + 1) (2 ^ 32 - 1) ∧
        t.token f.work.tk.toNat = ps.token f.work.tk.toNat - 1 ∧ (o.write = false → t.sram = ps.sram) ∧
        (o.write = true → t.sram = (ps.write rd ((List.range (o.km1.toNat + 1)).flatMap (fun v =>
          (accBytes o.wf (Sparse.get ({} : AccEntry) r.1 v)).1))).sram)))

/-- DME_DISPATCH (R117, R125 to R131, R218): with nothing running the pending correction jobs run, each leaving its sums in the correction
entry; then a fetched DMM whose first vector is in the operand queue starts, or the ATS, ATV, ATX or DMG at the head runs whole and
completes; an ENTER that finds grid mode, or a run without it, is a mode exception. A word that loads the grid puts its codes into the
cells, one that flows gives each column its partial sum from row 0 down to row 63. Where the manual leaves it to the model: logs 9, 107,
114, 118, 120. -/
def Obligations.DmeDispatch : Prop :=
  (∀ (s : State) (p : Pid), (s.parcel p).dme.running = none →
    let ps := (s.parcel p).runJobs
    let gives := fun (t : ParcelState) => exec (.dmeDispatch p) s = .next (s.setParcel p t)
    ps.dme.jobs = [] ∧ ps.dme.running = none ∧
    (∀ f, ps.dme.shadow = some f → gives (if ps.dme.hasFirst f.work.id then
      { ps with dme := { ps.dme with shadow := none, running := some f } } else ps)) ∧
    (ps.dme.shadow = none → ps.dme.queue = [] → gives ps) ∧
    (∀ (w : DmeWork) (rest : List DmeWork), ps.dme.shadow = none → ps.dme.queue = w :: rest →
      (∀ o rb, w.op = .dmg o rb → o.enter = ps.dme.grid → gives (ps.dmeFault 8 w)) ∧
      (∀ o rb, w.op = .dmg o rb → o.enter = !ps.dme.grid →
        let g : GridState := if o.enter then {} else ps.dme.gridState
        if dmgBad w.fw o rb g = true then gives (ps.dmeFault 7 w)
        else ∃ t, gives t ∧ t.dme.grid = !o.exit ∧ t.dme.queue = rest ∧ t.token w.tk.toNat = ps.token w.tk.toNat - 1 ∧
          t.dme.dmgDone = Nat.min (ps.dme.dmgDone + 1) 65535 ∧ (o.exit = true → t.dme.lease = 0 ∧ t.dme.gridState = {}) ∧
          (o.exit = false → t.dme.gridState = (g2Step o.g2 g (g2Codes ps o.g2 rb)).1) ∧ (Config.g2Kind o.g2 ≠ 2 → t.sram = ps.sram)) ∧
      (∀ o rq rp rd, w.op = .ats o rq rp rd → atsBad w.fw (o.gm1.toNat + 1) rq rp rd = false →
        ∃ t, gives t ∧ t.dme.queue = rest ∧ t.token w.tk.toNat = ps.token w.tk.toNat - 1 ∧
          t.sram = (ps.write rd (bytes32 ((atsScores ps rq rp (o.gm1.toNat + 1) (o.nvm1.toNat + 1)).map Prod.fst))).sram) ∧
      (∀ o rw rp rd, w.op = .atv o rw rp rd → atvBad w.fw o (o.gm1.toNat + 1) rw rp rd = false →
        ∃ t, gives t ∧ t.dme.queue = rest ∧ t.token w.tk.toNat = ps.token w.tk.toNat - 1 ∧
          t.dme.acc = (atvAll ps o.pf.toNat rw rp (o.gm1.toNat + 1) (o.nvm1.toNat + 1) (atvStart o.chain ps.dme.acc)).1 ∧
          (o.write = false → t.sram = ps.sram)) ∧
      (∀ o rq rs rd rn, w.op = .atx o rq rs rd rn → atxBad w.fw (o.gm1.toNat + 1) rq rs rd rn = false →
        ∃ t, gives t ∧ t.dme.queue = rest ∧ t.token w.tk.toNat = ps.token w.tk.toNat - 1))) ∧
  (∀ (ps : ParcelState) (id : Nat) (l : LotId) (x : OutEntry), (ps.lot l.val).outq = [x] → x.work.id = id → x.recomputed = false →
    let t := ps.runJob (id, l)
    let sums := (List.range 1024).map (outlierSum (outlierEntries ps l.val x.count) x.work.n x.codes)
    t.dme.corr = sums ∧ t.dme.cjDone = Nat.min (ps.dme.cjDone + 1) 65535 ∧ t.dme.acc = ps.dme.acc ∧
    (t.lot l.val).outq = [{ x with o := sums, jobDone := true }]) ∧
  (∀ (g : BitVec 32) (d : GridState) (codes : List Nat),
    (Config.g2Kind g = 0 → (g2Step g d codes).1.cells = codes ∧ (g2Step g d codes).1.fmt = Config.g2Format g) ∧
    (∀ (ft fx t x : Nat) (s : BitVec 32), ft ≠ 4 → fx ≠ 4 → g2Cell ft fx t x s = (s + BitVec.ofInt 32 (g2Int ft t * g2Int fx x), {})))

/-- KAP_SEND (R161, R222 to R224): the oldest KAP with good operands is encoded, its events counted, and its records (one of a value, two
of a key) leave on VC1 for the parcel that owns the position, once its port takes them; a bad operand raises the append path's exception.
APPEND_ACCEPT (R310 to R312, R547): a key's first record is held; with a KAP's last record a row whose slot, step, position and frame the
owner checks out is written into the frame and staged, its page locked, its home writes sent under write credits, and the KAP acknowledged;
a row that does not check out is dropped, counted in APPEND_DROP and reported; while the owner can neither take nor spill it the record
stays. Where the manual leaves it to the model: logs 18, 107. -/
def Obligations.Appends : Prop :=
  (∀ (s : State) (p : Pid) (w : KapWork),
    let ps := s.parcel p
    let d := kapDesc (ps.read w.desc 32)
    let s1 := s.setParcel p (ps.count w.tag.toNat (kapRecords ps w).2)
    ps.kapq.find? (fun k => !k.sent) = some w →
    (kapBad ps w = true → exec (.kapSend p) s = .next (s.setParcel p (ps.kapFault w))) ∧
    (kapBad ps w = false → ∀ q : Pid, s.net.place.lookup (d.hgFirst + d.pos / 256 % d.hgSize) = some q →
      (s.canSendRun 1 (.parcel q) (.parcel p) (if w.value then 1 else 2) = false → exec (.kapSend p) s = .next s) ∧
      (∀ t : State, s.canSendRun 1 (.parcel q) (.parcel p) (if w.value then 1 else 2) = true →
        s1.kapInject p q w d (kapRecords ps w).1 = some t →
        exec (.kapSend p) s = .next (t.modParcel p (fun x => { x with
          kapq := x.kapq.map (fun k => if k.id = w.id then { k with sent := true } else k) })) ∧
        t.net.flits.length = s.net.flits.length + (if w.value then 1 else 2) ∧
        ∀ f ∈ t.net.flits.drop s.net.flits.length, f.vc = 1 ∧ f.dst = .parcel q ∧ f.src = .parcel p))) ∧
  (∀ (s : State) (p : Pid) (id : Nat) (f : Flit) (r : KapRow),
    let ps := s.parcel p
    let s1 := s.dropFlit id
    s.flit id = some f → f.payload = .kapRow r → f.loc = .sink (.parcel p) →
    (r.value = false → (∀ h ∈ ps.kv.halves, h.issuer ≠ r.issuer ∨ h.id ≠ r.id) → exec (.appendAccept p id) s = .next (s1.setParcel p
      { ps with kv := { ps.kv with halves := ps.kv.halves ++ [r] } })) ∧
    (ps.kv.ends r = true → ps.kv.accepts r = none → exec (.appendAccept p id) s = .next (s1.setParcel p { ps with
      kv := { ps.kv with
        halves := ps.kv.halves.filter (fun h => !(h.issuer == r.issuer && h.id == r.id))
        appendDrop := Nat.min (ps.kv.appendDrop + 1) 65535 }
      reports := ps.reports ++ [.data .append r.step] })) ∧
    (∀ (g : Page) (fr : Nat), ps.kv.ends r = true → ps.kv.accepts r = some (g, fr) →
      let lock : PageLock := { slot := r.slot, layer := r.layer, head := r.head, n := r.pos / 256, step := r.step, parcel := p.p.val }
      let bs := (ps.kv.halves.filter (fun h => h.issuer == r.issuer && h.id == r.id) ++ [r]).flatMap (fun h => ps.rowBursts h fr)
      let s0 := s1.modDist p.d.val (fun x => if x.locks.contains lock then x else { x with locks := x.locks ++ [lock] })
      let taken := ps.acceptRow r (s.attempt r.step) bs
      (∀ t : State, lock ∈ (s.dist p.d.val).locks ∨ (s.dist p.d.val).locks.length < 1024 →
        s1.canSend 2 (.parcel r.issuer) (.parcel p) = true → (s0.setParcel p taken).sendHome p g r bs = some t →
        ∃ u, exec (.appendAccept p id) s = .next u ∧
          (∀ u', t.inject 2 0 0 5 (.parcel r.issuer) (.parcel p) (.kapAck r.id) = some u' → u = u') ∧
          (u.parcel p).sram = taken.sram ∧ r.staged ∈ (u.parcel p).kv.staged ∧ lock ∈ (u.dist p.d.val).locks) ∧
      (s1.canSend 2 (.parcel r.issuer) (.parcel p) = false → ps.lane.freeSpill = none → exec (.appendAccept p id) s = .next s)))

/-- LDQ_RUN and STQ_RUN (R225, R227, R376, R378): the first entry in issue order with something to send that no earlier range overlaps runs:
one with bad operands raises the queue operand exception; a load with good ones takes its window and sends a request for each group of its
range, a store sends its records under write credits, each while its port takes them. KAP_ACK, STACK_READ_RESPONSE and ACK_COUNT (R151,
R205, R224, R226, R293, R312): an acknowledged KAP completes; a record that passes its CRC is opened and written at its place, one that
fails or is lost is a data fault; acknowledged writes return their credits. Where the manual leaves it to the model: logs 105, 108. -/
def Obligations.QueueRuns : Prop :=
  (∀ (s : State) (p : Pid) (e : QueEntry),
    let ps := s.parcel p
    let groups := groupRuns e.addr e.n
    (ps.lq.find? (fun x => x.sent < (groupRuns x.addr x.n).length && !ps.blocked x) = some e →
      (e.started = false → ps.queueBad e = true → exec (.ldqRun p) s = .next (s.setParcel p (ps.queueFault e))) ∧
      (∀ (n : Nat) (r : Nat × Nat) (rest : List (Nat × Nat)), groups.drop e.sent = r :: rest →
        (e.started = true ∧ e.win = n) ∨ (e.started = false ∧ ps.queueBad e = false ∧ ps.windowOf false e.fw e.addr e.n = some n) →
        let k := s.stk.lead (e.addr + 72 * r.1)
        let e' := { e with started := true, win := n, sent := e.sent + 1 }
        let share := (Sparse.get {} ps.win n).share
        (s.canSend 1 (.stack k) (.parcel p) = false → exec (.ldqRun p) s = .next s) ∧
        (∀ t : State, s.canSend 1 (.stack k) (.parcel p) = true →
          s.inject 1 0 r.1 2 (.stack k) (.parcel p) (.readReq (.ldq e.id) r.1 r.2 (e.addr + 72 * r.1) share) = some t →
          exec (.ldqRun p) s = .next ((t.setParcel p (ps.setEntry e')).sendReads p e' share rest) ∧
          (rest = [] → exec (.ldqRun p) s = .next (t.setParcel p (ps.setEntry e')))))) ∧
    (ps.sq.find? (fun x => x.sent < x.n && !ps.blocked x) = some e →
      (e.started = false → ps.queueBad e = true → exec (.stqRun p) s = .next (s.setParcel p (ps.queueFault e))) ∧
      (∀ n : Nat, e.started = true ∨ ps.queueBad e = false → ps.windowOf true e.fw e.addr e.n = some n →
        let a := e.addr + 72 * e.sent
        let e' := { e with started := true, win := n, sent := e.sent + 1 }
        (ps.hasWriteCredit (s.stk.lead a) = false ∨ s.canSend 3 (.stack (s.stk.lead a)) (.parcel p) = false →
          exec (.stqRun p) s = .next s) ∧
        (∀ t : State, ps.hasWriteCredit (s.stk.lead a) = true → s.canSend 3 (.stack (s.stk.lead a)) (.parcel p) = true →
          s.injectWrite p a (ps.storeRecord e e.sent) (.stq e.id) = some t →
          exec (.stqRun p) s = .next ((t.modParcel p (fun q => q.setEntry e')).sendWrites p e' (e.n - e.sent - 1)) ∧
          (e.n = e.sent + 1 → exec (.stqRun p) s = .next (t.modParcel p (fun q => q.setEntry e'))))))) ∧
  (∀ (s : State) (p : Pid) (id : Nat) (f : Flit), s.flit id = some f → f.loc = .sink (.parcel p) →
    let ps := s.parcel p
    let s1 := s.dropFlit id
    (∀ (n : Nat) (w : KapWork), f.payload = .kapAck n → ps.kapq.find? (fun k => k.id == n && k.sent) = some w →
      exec (.kapAck p id) s = .next (s1.setParcel p
        (({ ps with kapq := ps.kapq.filter (fun k => k.id ≠ n) } : ParcelState).complete w.id w.tk))) ∧
    (∀ (entry i : Nat) (r : List Byte) (lost : Bool) (e : QueEntry), f.payload = .readResp (.ldq entry) i r lost →
      ps.lq.find? (fun x => x.id == entry) = some e →
      (lost = true → exec (.stackReadResponse p id) s = .next (s1.setParcel p
        (({ ps with reports := ps.reports ++ [.data .lost ps.swp.step.toNat] } : ParcelState).gotRecord e i))) ∧
      (lost = false → recordOk r = false → exec (.stackReadResponse p id) s = .next (s1.setParcel p (({ ps.countCrc e.tag.toNat with
        reports := ps.reports ++ [.data (.record (e.addr + 72 * i)) ps.swp.step.toNat] } : ParcelState).gotRecord e i))) ∧
      (lost = false → recordOk r = true →
        let body := openRecord s.stk.keys (Sparse.get {} ps.win e.win) (e.addr + 72 * i) r
        exec (.stackReadResponse p id) s = .next (s1.setParcel p
          ((if e.raw then ps.write (e.sram + 64 * i) (body.drop 4) else ps.write (e.sram + 68 * i) body).gotRecord e i)))) ∧
    (∀ (k : StackId) (os : List WriteOrigin) (back grant : Nat), f.payload = .ackCount k os back grant →
      ∃ t, exec (.ackCount p id) s = .next t ∧ t.stk = s.stk ∧ (∀ q : Pid, q ≠ p → t.parcel q = s.parcel q) ∧
        (ps.lane.spill = [] → s1.onlyParcel t p) ∧
        Sparse.get 2 (t.parcel p).writeCredits k.val = Sparse.get 2 ps.writeCredits k.val + (os.length - back) ∧
        Sparse.get 0 (t.parcel p).poolCredits k.val = Sparse.get 0 ps.poolCredits k.val + grant))

/-- STACK_READ_REQUEST, STACK_WRITE and POOL_CREDIT_RETURN (R370, R371, R376 to R379, R383): the request whose turn it is under the
shares is answered record by record by each record's lead, and with all its records answered leaves the read queue; a write stands in
the stack space, every byte outside it stays, it counts against its class, and its acknowledgement, where VC2 takes it, gives 8 pool
credits while more than 1,024 entries are free; a credit goes back to its pool; with three stacks lost nothing is served. Where the
manual leaves it to the model: logs 16, 87 and 131. -/
def Obligations.StackServes : Prop :=
  (∀ (s : State) (k : StackId) (p : Pid) (id : Nat) (f : Flit) (er : List StackId), s.flit id = some f → f.loc = .sink (.stack k) →
    let s1 := s.dropFlit id
    (f.readClass.isSome = true →
      (3 ≤ s.stk.lost.length → exec (.stackReadRequest k id er) s = .next s1) ∧
      (∀ (g : Flit) (o : ReadOrigin) (first count a share : Nat), s.stk.lost.length < 3 → s.nextRead k = some g →
        g.payload = .readReq o first count a share →
        let r := s.respond (er.map Fin.val) g.src o first a count
        r.2 = count → exec (.stackReadRequest k id er) s = .next ((r.1.countServed k g count).dropFlit g.id))) ∧
    (∀ (a : Nat) (bs : List Byte) (o : WriteOrigin) (pool : Bool), f.payload = .write a bs o pool →
      (3 ≤ s.stk.lost.length → exec (.stackWrite k id) s = .next s1) ∧
      (s.stk.lost.length < 3 → ∃ t, exec (.stackWrite k id) s = .next t ∧ t.stackRead a bs.length = bs ∧
        (∀ x, x < a ∨ a + bs.length ≤ x → t.stackRead x 1 = s.stackRead x 1) ∧ t.stk.turns = (s1.countWritten k f o).stk.turns ∧
        let free := Sparse.get 4096 s.stk.pools k.val + (if pool then 1 else 0)
        Sparse.get 4096 t.stk.pools k.val =
          free - (if 1024 < free ∧ s1.canSend 2 f.src (.stack k) = true then 8 else 0))) ∧
    (Sparse.get 0 (s.parcel p).poolCredits k.val ≠ 0 → ∃ t, exec (.poolCreditReturn p k) s = .next t ∧
      Sparse.get 0 (t.parcel p).poolCredits k.val = Sparse.get 0 (s.parcel p).poolCredits k.val - 1 ∧
      Sparse.get 4096 t.stk.pools k.val = Sparse.get 4096 s.stk.pools k.val + 1)) ∧
  (∀ (s : State) (er : List Nat) (dst : Endpoint) (o : ReadOrigin) (i a n : Nat) (u : State),
    let lead := s.stk.lead a
    (s.canSend 2 dst (.stack lead) = false → s.respond er dst o i a (n + 1) = (s, 0)) ∧
    (s.canSend 2 dst (.stack lead) = true → (s.readRecord er a).1.inject 2 0 i 3 dst (.stack lead)
        (.readResp o i (s.stackRead a 72) (s.readRecord er a).2) = some u →
      s.respond er dst o i a (n + 1) = ((u.respond er dst o (i + 1) (a + 72) n).1, (u.respond er dst o (i + 1) (a + 72) n).2 + 1)))

/-- SND_START (R148, R230, R232, R234, R249, R436): the SND or MCS at the head of the lane queue is checked when it starts, and a bad
operand raises the lane exception; its records leave one by one while the port takes them, on VC0 only in a slot of the flow and one a
slot; with the last of them the flow's sequence number moves on and the instruction completes; where one cannot leave it completes with a
data fault. RCV_POST and RECORD_RECEIVE (R148, R231, R266, R294): an RCV is posted unless its flow has one, numbered from the flow's next
record; a record of a posted buffer goes there; else the receive store of 32 holds it; beyond that its header and the record leave on VC3
for the spill region under write credits, counted in SPILLED, and it waits while they cannot; with that full it is dropped as a data
fault. Where the manual leaves it to the model: logs 17, 18, 105. -/
def Obligations.LaneFlows : Prop :=
  (∀ (s : State) (p : Pid) (w : LaneWork) (rest : List LaneWork),
    let ps := s.parcel p
    let k := (ps.lane.sentOf w.idTk.1).getD 0
    let total := s.sendTotal w
    let ended := fun (q : ParcelState) => ({ q with lane := { q.lane with
      queue := q.lane.queue.drop 1, sending := none } } : ParcelState).complete w.idTk.1 w.idTk.2
    let waits := fun (t : State) (n : Nat) => t.modParcel p (fun q => { q with lane := { q.lane with sending := some (w.idTk.1, n) } })
    ps.lane.queue = w :: rest →
    (ps.lane.sentOf w.idTk.1 = none → s.sendBad ps w = true →
      exec (.sndStart p) s = .next (s.setParcel p (ps.laneFault w.tag w.bank.1 w.bank.2))) ∧
    (ps.lane.sentOf w.idTk.1 ≠ none ∨ s.sendBad ps w = false → k < total →
      (s.sendFlit p k w = none → exec (.sndStart p) s = .next (s.setParcel p
        (ended { ps with reports := ps.reports ++ [.data .detour ps.swp.step.toNat] }))) ∧
      ∀ x, s.sendFlit p k w = some x →
        (s.sendOpen p w x = false → exec (.sndStart p) s = .next (waits s k)) ∧
        ∀ u, s.sendOpen p w x = true → s.inject x.vc x.ch x.seq 0 x.dst (.parcel p) x.payload = some u →
          u.net.flits.length = s.net.flits.length + 1 ∧
          (k + 1 = total → exec (.sndStart p) s = .next (u.setParcel p (ended (ps.sentAll w)))) ∧
          (k + 1 < total → exec (.sndStart p) s = .next
            (if x.vc = 0 then waits u (k + 1) else u.sendFrom p w (k + 1) (total - (k + 1)))))) ∧
  (∀ (s : State) (p : Pid) (id : Nat) (tag tk : BitVec 4) (plan raw fw : Bool) (n ch src epc tree k : Nat) (t : Word),
    let ps := s.parcel p
    let snd : LaneWork := .snd id tag tk plan raw n ch src t fw epc
    let mcs : LaneWork := .mcs id tag tk raw n ch src tree fw epc
    let flow := s.planFlow ps.lparcel (targetParcel t) ch
    let size := (if raw then 64 else 68) * n
    s.sendTotal snd = n ∧ n ≤ s.sendTotal mcs ∧
    (s.sendBad ps snd = true ↔ 10239 < targetEngine t ∨ (targetEngine t = ps.engine ∧ ps.nparcel ≤ targetParcel t) ∨
      (plan = true ∧ (targetEngine t ≠ ps.engine ∨ flow = none)) ∨ unitOpen fw src size = false ∨ (raw = false ∧ src % 4 ≠ 0)) ∧
    (s.sendBad ps mcs = false ↔ (∃ x, s.net.trees.lookup tree = some x ∧ x.root = ps.lparcel) ∧ unitOpen fw src size = true ∧
      (raw = true ∨ src % 4 = 0)) ∧
    (∀ x, targetEngine t = ps.engine → s.sendFlit p k snd = some x →
      s.net.place.lookup (targetParcel t) = (match x.dst with | .parcel q => some q | _ => none) ∧
      (x.vc = 0 ↔ plan = true ∧ ∃ f, flow = some f ∧ f.demoted = false) ∧ (x.vc = 0 ∨ x.vc = 1) ∧
      x.seq = ps.sentNext false (targetEngine t) (targetParcel t) ch + k ∧ ∃ step,
      x.payload = .record { eng := ps.engine, lp := ps.lparcel, ch := ch } raw (ps.sendRecord src raw k) step) ∧
    (k < n → ∀ x, s.sendFlit p k mcs = some x → x.vc = 5 ∧ x.dst = .tree tree ∧ x.seq = ps.sentNext true 0 tree ch + k)) ∧
  (∀ (s : State) (p : Pid) (id : Nat) (tag tk : BitVec 4) (raw fw : Bool) (n ch dst epc : Nat) (t : Word) (rest : List LaneWork),
    let ps := s.parcel p
    let flow : Flow := { eng := targetEngine t, lp := targetParcel t, ch := ch }
    (ps.lane.queue = .rcv id tag tk raw n ch dst t fw epc :: rest →
      let good := targetEngine t ≤ 10239 ∧ (targetEngine t = ps.engine → targetParcel t < ps.nparcel) ∧
        unitOpen fw dst ((if raw then 64 else 68) * n) = true ∧ (raw = true ∨ dst % 4 = 0)
      (¬ good → exec (.rcvPost p) s = .next (s.setParcel p (ps.laneFault tag epc fw))) ∧
      (good → ps.lane.posted.any (fun b => b.flow == flow) = true → exec (.rcvPost p) s = .next s) ∧
      (good → ps.lane.posted.any (fun b => b.flow == flow) = false → ps.lane.store.all (fun h => h.flow ≠ flow) = true →
        let ps1 := { ps with lane := { ps.lane with
          queue := rest
          posted := ps.lane.posted ++ [{
            id := id, tag := tag, tk := tk, flow := flow, raw := raw, n := n, dst := dst,
            base := (ps.lane.received.lookup flow).getD 0, got := [], fw := fw, epc := epc }] } }
        exec (.rcvPost p) s = .next ((s.setParcel p ps1).readBack p) ∧
        (ps.lane.spill = [] → exec (.rcvPost p) s = .next (s.setParcel p ps1)))) ∧
    (∀ (fid : Nat) (f : Flit) (fl : Flow) (rw : Bool) (r : List Byte) (step : Nat), s.flit fid = some f →
      f.loc = .sink (.parcel p) → f.payload = .record fl rw r step →
      let s1 := s.dropFlit fid
      (∀ q, ps.offer fl rw f.seq r step = some q → exec (.recordReceive p fid) s = .next (s1.setParcel p q)) ∧
      (ps.offer fl rw f.seq r step = none → ps.lane.store.length < 32 →
        exec (.recordReceive p fid) s = .next (s1.setParcel p { ps with lane := { ps.lane with
          store := ps.lane.store ++ [{ flow := fl, raw := rw, seq := f.seq, bytes := r, step := step }] } })) ∧
      (∀ e, ps.offer fl rw f.seq r step = none → 32 ≤ ps.lane.store.length → ps.lane.freeSpill = some e →
        let ent : SpillEnt := { entry := e, flow := fl, raw := rw, seq := f.seq, step := step }
        (s1.spillRecord p f ent r = none → exec (.recordReceive p fid) s = .next s) ∧
        (∀ u, s1.spillRecord p f ent r = some u → exec (.recordReceive p fid) s = .next u ∧
          (∃ head b1 b2, (u.net.flits.drop s1.net.flits.length).map (fun g => (g.vc, g.payload)) =
            [(3, .write (spillBase p + 144 * e) head (.spill e) b1), (3, .write (spillBase p + 144 * e + 72) r (.spill e) b2)]) ∧
          (u.parcel p).lane.spill = ps.lane.spill ++ [ent] ∧
          (u.parcel p).rtr.spilled = Nat.min (ps.rtr.spilled + 1) (2 ^ 32 - 1))) ∧
      (ps.offer fl rw f.seq r step = none → 32 ≤ ps.lane.store.length → ps.lane.freeSpill = none →
        exec (.recordReceive p fid) s = .next (s1.setParcel p { ps with
          rtr := { ps.rtr with spilled := Nat.min (ps.rtr.spilled + 1) (2 ^ 32 - 1) }
          reports := ps.reports ++ [.data .spill step] }))))

/-- FLIT_ARRIVAL (R262, R265 to R269, R276, R297): a flit is lost in a district that does not forward; it is dropped, counted and reported
for its step where it is malformed, uncorrectable, has no route or comes for a DEAD port; else it takes its buffer and its outputs grant.
Where no other flit waits in that router it leaves at once: into the parcel it names unless the local port is closed, into the block beyond
the edge, or over the link to the next router under a credit; a VC0 flit from another router outside a cycle reserved for it counts in
PLAN_MISS. CREDIT_RETURN, FRAME_BOUNDARY and HOLE_SENSE (R267, R268, R275, R296, R297): a freed buffer gives one credit back; at the first
cycle of a frame the routers whose second reservation map is written for it switch to it, at no other time; a dead district is taken into
the holes, so that no route enters it. Where the manual leaves it to the model: logs 14, 15, 105, 130. -/
def Obligations.RouterRows : Prop :=
  (∀ (s : State) (id : Nat) (uc : Bool) (f : Flit) (r : Pid) (inp : Fin 5), s.flit id = some f → f.loc = .link r inp →
    let st := (s.dist r.d.val).st
    let x := (s.parcel r).rtr
    let rest := s.net.flits.filter (fun g => g.id ≠ id)
    let drop := (s.dropFlit id).setParcel r { s.parcel r with
      rtr := { x with detourDrop := Nat.min (x.detourDrop + 1) 65535 }
      reports := (s.parcel r).reports ++ [.data .detour (s.flitStep f)] }
    (st ≠ .active → st ≠ .idle → st ≠ .spare → exec (.flitArrival id uc) s = .next (s.dropFlit id)) ∧
    (st = .active ∨ st = .idle ∨ st = .spare →
      (uc = true ∨ 6 ≤ f.vc ∨ 7 ≤ f.typ ∨ s.outputsOf r f = [] → exec (.flitArrival id uc) s = .next drop) ∧
      (uc = false → f.vc < 6 → f.typ < 7 → s.outputsOf r f ≠ [] → exec (.flitArrival id uc) s =
        .next ((s.outputsOf r f).foldl (fun t o => t.grant r o.1) (s.enbuffer r inp f (s.outputsOf r f)))) ∧
      ((∀ t, f.dst ≠ .tree t) → routeAt (s.tableOf r.d.val) r f.dst f.src.unit f.leg f.wayd = none → s.outputsOf r f = []) ∧
      (∀ o leg : Nat, uc = false → f.vc < 6 → f.typ < 7 → (∀ t, f.dst ≠ .tree t) →
        routeAt (s.tableOf r.d.val) r f.dst f.src.unit f.leg f.wayd = some (o, leg) →
        ((∀ g ∈ s.net.flits, ∀ i, g.loc ≠ .buf r i) → o < 4 → x.dead.getLsbD (newsBit o) = true →
          exec (.flitArrival id uc) s = .next drop) ∧
        ((∀ g ∈ s.net.flits, ∀ i, g.loc ≠ .buf r i) → Sparse.get 0 x.busy o ≤ s.clk.fclk →
          (f.vc = 4 → Sparse.get 0 x.vc4At o ≤ s.clk.fclk) →
          let leaves := fun (l : Loc) => ∃ t, exec (.flitArrival id uc) s = .next t ∧
            t.net.flits = rest ++ [{ f with leg := leg, loc := l, outs := [], since := s.clk.fclk }] ∧
            (∀ q : Pid, q ≠ r → t.parcel q = s.parcel q) ∧ (t.parcel r).sram = (s.parcel r).sram ∧ (t.parcel r).reports = (s.parcel r).reports
          (o = 4 → s.portClosed r = false → s.sinkOpen (.parcel r) f.vc = true → leaves (.sink (.parcel r))) ∧
          (o = 4 → s.portClosed r = true → ∃ t, exec (.flitArrival id uc) s = .next t ∧ t.net.flits = rest) ∧
          (∀ k : StackId, o = 5 → leg ≠ 3 → f.dst = .stack k → f.readClass.isSome = true → s.sinkOpen f.dst f.vc = true →
            leaves (.sink f.dst)) ∧
          (∀ (q : Pid) (i : Fin 5), o < 4 → x.dead.getLsbD (newsBit o) = false → x.hasCredit o f.vc leg = true →
            neighbour r o = some (q, i) →
            leaves (.link q i) ∧ ∀ t, exec (.flitArrival id uc) s = .next t →
              Sparse.get 0 (t.parcel r).rtr.used (24 * o + 4 * f.vc + leg) = Sparse.get 0 x.used (24 * o + 4 * f.vc + leg) + 1 ∧
              (t.parcel r).rtr.planMiss = if f.vc = 0 ∧ inp ≠ 4 ∧ (Sparse.get 0 x.resv o).getLsbD (s.clk.fclk % 4096) = false then
                Nat.min (x.planMiss + 1) 65535 else x.planMiss))))) ∧
  (∀ (s : State) (p : Pid) (o : Fin 5) (vc : Fin 6) (leg : Fin 4) (d : DistId),
    let k := 24 * o.val + 4 * vc.val + leg.val
    let x := (s.parcel p).rtr
    (∀ (q : Pid) (i : Fin 5), neighbour p o.val = some (q, i) →
      let back := s.setParcel p { s.parcel p with rtr := { x with used := Sparse.put x.used k (Sparse.get 0 x.used k - 1) } }
      (Sparse.get 0 x.used k ≤ s.occupancy q i vc.val leg.val → exec (.creditReturn p o vc leg) s = .next s) ∧
      (s.occupancy q i vc.val leg.val < Sparse.get 0 x.used k →
        exec (.creditReturn p o vc leg) s = .next (back.grant p o.val) ∧
        (s.heads p o.val = [] → exec (.creditReturn p o vc leg) s = .next back))) ∧
    (s.clk.fclk % 4096 ≠ 0 → exec .frameBoundary s = .next s) ∧
    (s.clk.fclk % 4096 = 0 → ∃ t, exec .frameBoundary s = .next t ∧ ∀ q : Pid,
      let y := (s.parcel q).rtr
      (t.parcel q).sram = (s.parcel q).sram ∧ (y.resvNext = none → (t.parcel q).rtr = y) ∧
      ∀ n m, y.resvNext = some (n, m) → (n ≤ s.clk.frame → (t.parcel q).rtr.resv = m ∧ (t.parcel q).rtr.resvNext = none) ∧
        (s.clk.frame < n → (t.parcel q).rtr = y)) ∧
    (s.live d.val = true ∨ s.net.knowsHole d.val = true → exec (.holeSense d) s = .next s) ∧
    (s.live d.val = false → s.net.knowsHole d.val = false → ∃ t, exec (.holeSense d) s = .next t ∧ d.val ∈ t.net.holes ∧
      t.net.treesDue = true))

/-! ### Boot, roles, registers -/

/-- POWER_ON, INPUT_REMOVED, OVERVOLTAGE, REVERSED_POLARITY, UNDERVOLT, FAST_LIMIT and STRAP_CHANGE (R8, R9, R453, R469, R571, R592,
R594): power-on latches the strap and runs boot step 1, a broken seal ends in FAULT with KEY_BAD; without power only flash, fuses, the
strap pin and what the model itself adds remain; a fast limit halves the cap factor; a strap change acts at the next power-on. The boot
rows (R32, R33, R596, R599): the flow lets steps 3 and 4 run, in which each good warden writes its detour table, its absence 60 s after
t0 is a FAULT with COOLANT_LOST; at the close of the window the roles are elected in epoch 1; step 5 applies the stored fabric; with
fewer than three stacks lost the engine enters STANDBY with its frame counters started together, else FAULT with NO_SPARE; BOOT_STATUS
leaves both management ports while no registry answers. Where the manual leaves it to the model: logs 77, 78. -/
def Obligations.BootRows : Prop :=
  (∀ (s : State) (vin iin : Nat) (air : Bool),
    (s.core.st = .off → 4000 < vin →
      (∃ t, exec (.powerOn vin true) s = .next t ∧ t.core.st = .boot ∧ t.core.air = s.core.strapPin ∧
        t.boot.step = (if s.core.strapPin then 3 else 2) ∧ t.pwr.vin = vin ∧ t.nv = s.nv ∧ t.sec.tamper = false ∧ t.dists = [] ∧
        t.stk = {}) ∧
      (∃ t, exec (.powerOn vin false) s = .next t ∧ t.core.st = .fault ∧ t.core.cause = 8 ∧ t.sec.tamper = true)) ∧
    (s.core.st ≠ .off → ∃ t, (∀ i ∈ [Instr.inputRemoved, .overvoltage, .reversedPolarity], exec i s = .next t) ∧
      t.core = { strapPin := s.core.strapPin } ∧ t.nv = s.nv ∧ t.stk = {} ∧ t.dists = [] ∧ t.serve = {} ∧ t.net = {} ∧
      (∀ q : Pid, (t.parcel q).sram = [] ∧ (t.parcel q).swp = {})) ∧
    (∃ t, exec (.undervolt vin) s = .next t ∧ t.pwr = { s.pwr with vin := vin } ∧ t.core = s.core ∧
      (s.core.st ≠ .off → s.core.epoch ≠ 0 → 3800 ≤ vin → vin < 4000 → t.recov.count = s.recov.count + 1) ∧
      (vin < 3800 ∨ 4000 ≤ vin → t.recov.count = s.recov.count)) ∧
    (∃ t, exec (.fastLimit iin) s = .next t ∧ t.pwr.iin = iin ∧
      (5200 < iin → t.pwr.sCap = Nat.min s.pwr.sCap 128 ∧ t.pwr.fastLimit = Nat.min (s.pwr.fastLimit + 1) 65535) ∧
      (iin ≤ 5200 → t = { s with pwr := { s.pwr with iin := iin } })) ∧
    (∃ t, exec (.strapChange air) s = .next t ∧ t.core = { s.core with strapPin := air })) ∧
  (∀ (s : State) (pf fb an late bench : List DistId) (pids : List Pid) (ks : List StackId),
    (s.core.st = .boot →
      (s.boot.step = 2 ∨ s.boot.step = 3 → ∃ t, exec (.bootFlowEstablished pf fb an) s = .next t ∧ t.boot.step = 4 ∧ t.core = s.core ∧
        ∀ d : DistId, (t.dist d.val).st =
          (if s.nv.fused.getLsbD d.val = false ∧ s.nv.retiredDistricts.getLsbD d.val = false ∧ d ∉ pf then .spare else .dark) ∧
          (s.nv.bootSlot.isSome = true → s.fitted d.val = true → d ∉ pf → d ∉ fb →
            (t.dist d.val).detour = detourTable (fullHoles s.unfitted) d.val)) ∧
      (s.boot.step = 2 → s.boot.t0 + 60000000000 ≤ s.time.ns → ∃ t, exec .bootFlowTimeout s = .next t ∧ t.core.st = .fault ∧
        t.core.cause = 11 ∧ t.boot.cause = 11) ∧
      (s.time.ns < s.boot.t0 + 60000000000 → exec .bootFlowTimeout s = .next s) ∧
      (s.boot.step = 4 →
        (∀ r q, electRoles s.liveWardens = some (r, q) → ∃ t, exec .electionWindowClose s = .next t ∧ t.core.registry = r ∧
          t.core.deputy = q ∧ t.core.epoch = 1 ∧ t.core.depValid = false ∧ t.core.snapshot = true ∧ t.boot.step = 5 ∧
          t.net.holes = fullHoles s.unfitted) ∧
        (electRoles s.liveWardens = none → ∃ t, exec .electionWindowClose s = .next t ∧ t.core.st = .fault ∧
          t.core.cause = if s.boot.fwBad = [] then 9 else 7)) ∧
      (s.boot.step = 5 → ∃ t, exec (.bootStep5End late) s = .next t ∧ t.boot.step = 6 ∧
        (∀ f, s.nv.fabricOk = true → s.nv.fabric = some f → t.fab.ok = true ∧ t.fab.engineId = f.engineId ∧ t.fab.encap = f.encap ∧
          t.fab.prio = f.prio ∧ t.fab.domain = f.domain) ∧
        (s.nv.fabricOk = false ∨ s.nv.fabric = none → t.fab.ok = false ∧ t.fab.engineId = 0x3FFF)) ∧
      (s.boot.step = 6 →
        ((s.bootStacks (ks.map Fin.val)).stk.lost.length < 3 → ∃ t, exec (.bootComplete pids bench ks) s = .next t ∧
          t.core.st = .standby ∧ t.core.depValid = true ∧ t.boot.step = 8 ∧ t.clk.sync = true ∧ t.clk.window = 0 ∧ t.clk.frame = 0 ∧
          t.clk.fclk = 0) ∧
        (3 ≤ (s.bootStacks (ks.map Fin.val)).stk.lost.length → ∃ t, exec (.bootComplete pids bench ks) s = .next t ∧
          t.core.st = .fault ∧ t.core.cause = 9))) ∧
    (s.core.st ≠ .off → s.core.epoch = 0 → exec .bootStatus s = .next { s with
      out := s.out ++ [.bootStatus 16 s.bootStatusBytes] ++ [.bootStatus 17 s.bootStatusBytes] }))

/-- The registry and warden rows (R26, R33 to R39, R550 to R552): heartbeats are VC4 flits that count as they arrive, the registry's at its
deputy, a warden's at its watcher; after three missed ones, or on a report of the loss, a takeover makes the deputy the registry in the
next epoch, and without a valid deputy is a FAULT; a snapshot makes the deputy valid; a new one is named from the other live wardens; a
warden's checks on the source and the epoch of a command, and its reply; a lost warden stops running and is counted. Where the manual
leaves it to the model: logs 46, 71, 72. -/
def Obligations.RegistryRows : Prop :=
  ∀ (s : State) (d : DistId) (b : Bool) (n : Nat) (ep : BitVec 32),
    let x := s.dist d.val
    let sends := fun (i : Instr) (s1 : State) (src dst : DistId) (m : MgmtMsg) =>
      (s1.inject 4 0 0 6 (.warden dst) (.warden src) (.mgmt m) = none → exec i s = .next s1) ∧
      ∀ u, s1.inject 4 0 0 6 (.warden dst) (.warden src) (.mgmt m) = some u → exec i s = .next u
    (s.core.epoch = 0 ∨ (s.dist s.core.registry).live = false → exec .registryHeartbeat s = .next s) ∧
    (∀ r q : DistId, s.core.epoch ≠ 0 → s.core.registry = r.val → s.core.deputy = q.val → (s.dist r.val).live = true →
      sends .registryHeartbeat s r q .registryBeat) ∧
    (∀ (f : Flit) (leg : Nat), (f.payload = .mgmt .registryBeat → d.val = s.core.deputy →
        s.intoSink f leg (.warden d) = { s with core := { s.core with hbMissed := 0 } }) ∧
      (∀ e, f.payload = .mgmt (.beat e) → s.intoSink f leg (.warden d) = s.modDist e (fun y => { y with hbMissed := 0 }))) ∧
    (b = false → s.core.hbMissed < 3 → exec (.registryTakeover b) s = .next s) ∧
    (s.core.epoch ≠ 0 → s.core.st ≠ .off → b = true ∨ 3 ≤ s.core.hbMissed →
      (s.core.depValid = true → (s.dist s.core.deputy).live = true → ∃ t, exec (.registryTakeover b) s = .next t ∧
        t.core.registry = s.core.deputy ∧ t.core.epoch = (s.core.epoch + 1) % 2 ^ 32 ∧ t.core.hbMissed = 0) ∧
      (s.core.st ≠ .fault → s.core.depValid = false ∨ (s.dist s.core.deputy).live = false →
        ∃ t, exec (.registryTakeover b) s = .next t ∧ t.core.st = .fault ∧ t.core.registry = s.core.registry)) ∧
    (s.core.snapshot = true → exec .deputySnapshotDone s =
      .next { s with core := { s.core with depValid := true, snapshot := false } }) ∧
    (s.core.epoch ≠ 0 →
      let rest := s.liveWardens.filter (fun e => e ≠ s.core.registry && e ≠ s.core.deputy)
      ∃ t, exec .deputyLost s = .next t ∧ t.core.depValid = false ∧
        (rest ≠ [] → t.core.deputy ∈ rest ∧ t.core.snapshot = true) ∧ (rest = [] → t.core.snapshot = false) ∧
        t.recov.count = s.recov.count + 1) ∧
    (s.core.depValid = true → exec (.deputyAck n) s = .next { s with serve := { s.serve with
      steps := s.serve.steps.map (fun (st : Step) => { st with
        logAcked := st.logAcked || (st.record == n && decide (st.need ≤ st.rows.length))
        commitAcked := st.commitAcked || st.commitRec == some n }) } }) ∧
    (x.live = true ∨ x.proxyBy ≠ 63 →
      exec (.wardenCommand d .other ep) s = .next (s.setDist d.val { x with badSource := Nat.min (x.badSource + 1) (2 ^ 32 - 1) }) ∧
      exec (.wardenCommand d .takeover ep) s = .next s ∧
      (ep.toNat < x.epochSeen → exec (.wardenCommand d .registry ep) s =
        .next (s.setDist d.val { x with staleEpoch := Nat.min (x.staleEpoch + 1) (2 ^ 32 - 1) })) ∧
      (∀ r : DistId, s.core.registry = r.val → x.epochSeen ≤ ep.toNat →
        sends (.wardenCommand d .registry ep) (s.setDist d.val { x with epochSeen := ep.toNat }) d r (.reply d.val))) ∧
    (x.live = true → (∀ e : DistId, (s.watchers d.val).head? = some e.val → sends (.wardenHeartbeat d) s d e (.beat d.val)) ∧
      (s.watchers d.val = [] → exec (.wardenHeartbeat d) s = .next s)) ∧
    (b = false → x.hbMissed < 3 → exec (.wardenLost d b) s = .next s) ∧
    (x.live = true → d.val ≠ s.core.registry → b = true ∨ 3 ≤ x.hbMissed →
      ∃ t, exec (.wardenLost d b) s = .next t ∧ (t.dist d.val).live = false ∧
      t.recov.wardensLost = Nat.min (s.recov.wardensLost + 1) 65535)

/-- STOP, RESUME, BOLLARD and the clearing rows (R28 to R30, R134, R202, R352, R455, R546 to R548): a stop and a resume of issue; a fence
that clears both banks, every queue, token and lease, closes the local port and drops the staged lot map; bits cleared by writing 1. Where
the manual leaves it to the model: log 102. -/
def Obligations.FenceRows : Prop :=
  ∀ (s : State) (p : Pid) (d : DistId) (ev m : BitVec 16),
    let ps := s.parcel p
    exec (.stop p) s = .next (s.setParcel p { ps with swp := { ps.swp with stopped := true } }) ∧
    exec (.resume p) s = .next (s.setParcel p { ps with swp := { ps.swp with stopped := false, halted := false } }) ∧
    (ps.health.bollard = false → s.load.phase ≠ 4 → s.load.phase ≠ 5 → ∃ t, exec (.bollard p ev) s = .next t ∧
      (t.parcel p).health.bollard = true ∧ (t.parcel p).health.fenceEvent = ev ∧ (t.parcel p).rtr.fenced = true ∧
      (t.parcel p).swp.g = [] ∧ (t.parcel p).swp.v = [] ∧ (t.parcel p).swp.fg = [] ∧ (t.parcel p).swp.fv = [] ∧
      (t.parcel p).swp.events = [] ∧ (t.parcel p).swp.wait = none ∧ (t.parcel p).tokens = [] ∧ (t.parcel p).meter.held = [] ∧
      (t.parcel p).lq = [] ∧ (t.parcel p).sq = [] ∧ (t.parcel p).kapq = [] ∧ (t.parcel p).lane.queue = [] ∧
      (t.parcel p).lane.posted = [] ∧ (t.parcel p).dme.queue = [] ∧ (t.parcel p).dme.running = none ∧ (t.parcel p).dme.lease = 0 ∧
      (t.parcel p).dme.grid = false ∧ (t.parcel p).mapArm = false ∧ (t.parcel p).poolCredits = []) ∧
    exec (.dmeExcClear p) s = .next (s.setParcel p { ps with dme := { ps.dme with exc := false } }) ∧
    exec (.swpExcClear p) s = .next (s.setParcel p { ps with swp := { ps.swp with exc := false } }) ∧
    exec (.lotMapBadClear p) s = .next (s.setParcel p { ps with mapBad := false }) ∧
    exec (.suspectClear d m) s = .next (s.setDist d.val { s.dist d.val with suspect := (s.dist d.val).suspect &&& ~~~ m })

/-- The writes of wardens and the registry (R74, R107, R203, R271, R300, R330, R352, R374, R456, R465, R612): each field of a good write
is read back from the register; a ration above 320, a bad remap, a bad field of LOT.CP_CFG, or a load register outside a load, stays as it
was and is put into the fault log. Where the manual leaves it to the model: logs 70, 88. -/
def Obligations.RegisterWrites : Prop :=
  ∀ (s : State) (p : Pid) (l : LotId) (d : DistId) (v : Word) (code : BitVec 6) (hi col : Bool) (n4 : Fin 4) (n16 w16 : Fin 16)
      (n102 : Fin 102),
    let ps := s.parcel p
    let x := ps.lot l.val
    let field := fun (hi lo : Nat) => v.toNat / 2 ^ lo % 2 ^ (hi + 1 - lo)
    let refused := fun (i : Instr) => ∃ t, exec i s = .next t ∧ t.parcels = s.parcels ∧
      (s.core.epoch ≠ 0 → t.recov.count = s.recov.count + 1)
    (field 8 0 ≤ 320 → exec (.wardenSetRation p v) s = .next (s.setParcel p { ps with meter := { ps.meter with ration := field 8 0 } })) ∧
    (320 < field 8 0 → refused (.wardenSetRation p v)) ∧
    (code.toNat ≤ 60 → exec (.setVoltage p code) s = .next (s.setParcel p { ps with reg := { ps.reg with vset := code.toNat } })) ∧
    (∃ t, exec (.lotMapWrite p hi v) s = .next t ∧ s.onlyParcel t p ∧ (t.parcel p).map = ps.map ∧
      ∀ k, k < 8 → Sparse.get 0 (t.parcel p).mapStaged ((if hi then 8 else 0) + k) =
        BitVec.ofNat 8 (field (8 * k + 7) (8 * k)) &&& 0x9F) ∧
    exec (.lotMapArm p hi) s = .next (s.setParcel p { ps with mapArm := hi }) ∧
    (let t := Sparse.put (if col then x.colRemap else x.rowRemap) n4.val (v &&& 0x87FF87FF87FF87FF);
      (ps.mapped l.val = false → remapOk t (if col then 1039 else 1023) = true → exec (.lotRemapWrite p l col n4 v) s =
        .next (s.setParcel p (ps.setLot l.val (if col then { x with colRemap := t } else { x with rowRemap := t })))) ∧
      (ps.mapped l.val = true ∨ remapOk t (if col then 1039 else 1023) = false → refused (.lotRemapWrite p l col n4 v))) ∧
    (∃ t, exec (.cpCfgWrite p l v) s = .next t ∧
      let c := ((t.parcel p).lot l.val).cp
      c.outliers = (if field 44 32 ≤ 4096 ∧ (ps.mapped l.val = false ∨ field 44 32 = x.cp.outliers) then field 44 32 else x.cp.outliers) ∧
      c.auditLog2 = field 28 24 ∧ c.flagLimit = field 23 16 ∧
      c.driftMode = (if field 9 8 = 3 then x.cp.driftMode else field 9 8) ∧ c.checkEn = v.getLsbD 7 ∧
      c.thresh = (if field 5 0 = 0 then x.cp.thresh else field 5 0)) ∧
    (s.atLoad p = true →
      (∃ t, exec (.paramWrite p n16 v) s = .next t ∧ s.onlyParcel t p ∧
        Sparse.get 0 (t.parcel p).swp.param n16.val = v &&& paramMask n16.val) ∧
      (∃ t, exec (.classWrite p n4 v) s = .next t ∧ s.onlyParcel t p ∧
        ∀ j, j < 4 → (t.parcel p).draw (4 * n4.val + j) = field (16 * j + 15) (16 * j)) ∧
      exec (.kvCfgWrite p v) s = .next (s.setParcel p { ps with kv := { ps.kv with cfg := v &&& 0xFFF0FFFFFFFFFFFF } })) ∧
    (s.atLoad p = false → refused (.paramWrite p n16 v) ∧ refused (.classWrite p n4 v) ∧ exec (.kvCfgWrite p v) s = .next s) ∧
    (∃ t, exec (.stackWindowWrite p w16 0 v) s = .next t ∧ s.onlyParcel t p ∧
      let w := Sparse.get {} (t.parcel p).win w16.val
      w.r = v.getLsbD 63 ∧ w.w = v.getLsbD 62 ∧ w.key = field 61 57 ∧ w.share = field 56 48 ∧ w.base = field 40 0 ∧
      w.length = (Sparse.get {} ps.win w16.val).length) ∧
    (∃ t, exec (.stackWindowWrite p w16 1 v) s = .next t ∧ (Sparse.get {} (t.parcel p).win w16.val).length = field 40 0) ∧
    (∃ t, exec (.stackWindowWrite p w16 2 v) s = .next t ∧
      (Sparse.get {} (t.parcel p).win w16.val).segLen = field 48 20 ∧ (Sparse.get {} (t.parcel p).win w16.val).first = field 19 0) ∧
    (∃ t, exec (.detourTableWrite d n102 v) s = .next t ∧ t.parcels = s.parcels ∧ t.net.treesDue = true ∧
      Sparse.get 0 (t.dist d.val).detour n102.val = BitVec.ofNat 32 (field 31 16 * 2 ^ 16)) ∧
    (∃ t, exec (.easeWrite hi v) s = .next t ∧ t.parcels = s.parcels ∧
      ∀ k, k < 8 → Sparse.get 0 t.net.ease ((if hi then 8 else 0) + k) = field (8 * k + 7) (8 * k))

/-- A register access that is not 64 bits wide and aligned has no effect, its read gives 0, and MALFORMED goes into the fault log (R17).
An access that nothing backs has no effect, its read gives 0, and MALFORMED goes into the fault log (R43); a write that no rule gives an
effect is ignored (R605, R612). Where the manual leaves it to the model: logs 69, 70, 109. -/
def Obligations.RefusedAccess : Prop :=
  (∀ (s : State) (addr n : Nat) (write : Bool), (regPlace addr).isSome = true → n ≠ 8 ∨ addr % 8 ≠ 0 →
    ∃ t, exec (.misalignedAccess addr n write) s = .next t ∧
      t = { s with stk := t.stk, recov := t.recov, regRead := if write then s.regRead else 0 } ∧
      (s.core.epoch = 0 → t.stk = s.stk ∧ t.recov = { s.recov with dropped := Nat.min (s.recov.dropped + 1) 65535 }) ∧
      (s.core.epoch ≠ 0 → t.recov = { s.recov with count := s.recov.count + 1 } ∧
        t.stackRead (logAddr s.recov.count) 72 = storedRecord (rawBody (s.logEntry
          { code := 51, status := 17, d := (addrUnits addr).1, parcel := (addrUnits addr).2 })) ∧
        ∀ x, x < logAddr s.recov.count ∨ logAddr s.recov.count + 72 ≤ x → t.stackRead x 1 = s.stackRead x 1)) ∧
  (∀ (s : State) (addr : Nat) (v : Word) (write : Bool),
    exec (.registerWrite addr v) s = .next s ∧
    (s.backed addr = false →
      ∃ t, exec (.unbackedAccess addr write) s = .next t ∧
        t = { s with stk := t.stk, recov := t.recov, regRead := if write then s.regRead else 0 } ∧
        (s.core.epoch = 0 → t.stk = s.stk ∧ t.recov = { s.recov with dropped := Nat.min (s.recov.dropped + 1) 65535 }) ∧
        (s.core.epoch ≠ 0 → t.recov = { s.recov with count := s.recov.count + 1 } ∧
          t.stackRead (logAddr s.recov.count) 72 = storedRecord (rawBody (s.logEntry
            { code := 51, status := 17, d := (addrUnits addr).1, parcel := (addrUnits addr).2 })) ∧
          ∀ x, x < logAddr s.recov.count ∨ logAddr s.recov.count + 72 ≤ x → t.stackRead x 1 = s.stackRead x 1)) ∧
    (∀ (p : Fin 60) (q : Fin 144) (b : Nat), 0x600000 ≤ b → b < 0x800000 →
      s.backed (0x100000000000 + 0x80000000 * p.val + 0x800000 * q.val + b) = false))

/-- A register read by firmware (R79, R606): the value stands in regRead, its RC fields read 0 afterwards, and each is combined into its
shadow, a count by adding and a peak by taking the larger; a sweep leaves every RC field of the engine block, or of a district, at 0.
Where the manual leaves it to the model: logs 3, 68, 97. -/
def Obligations.ReadClears : Prop :=
  ∀ (s : State) (d : DistId),
    (∀ (addr v : Nat) (pl : RegPlace), addr % 8 = 0 → regPlace addr = some pl → s.regValue addr = some v →
      ∃ t, exec (.counterReadClear addr) s = .next t ∧ t.regRead = BitVec.ofNat 64 v ∧
        (∀ f ∈ rcFields pl, ∃ w, t.regValue addr = some w ∧ f.of w = 0) ∧
        ∀ f ∈ (rcFields pl).zipIdx, t.shadow addr f.2 =
          if f.1.peak then Nat.max (s.shadow addr f.2) (f.1.of v) else s.shadow addr f.2 + f.1.of v) ∧
    (∃ t, exec (.firmwareRcSweep none) s = .next t ∧
      ∀ o ∈ engRcOffsets, ∀ f ∈ rcFields (.eng o), ∃ w, t.engReg o = some w ∧ f.of w = 0) ∧
    (s.nv.fused.getLsbD d.val = false → ∃ t, exec (.firmwareRcSweep (some d)) s = .next t ∧
      (∀ o ∈ [0x08, 0x48], ∀ f ∈ rcFields (.dst d.val o), ∃ w, t.dstReg d.val o = some w ∧ f.of w = 0) ∧
      ∀ (p : Pid), p.d = d → ∀ o ∈ pclRcOffsets, ∀ f ∈ rcFields (.pcl p o), ∃ w, t.pclReg p o = some w ∧ f.of w = 0)

/-! ### Passes, clients and serving -/

/-- PASS_START (R192, R199, R353, R354): the armed map is copied or, where it is bad, refused and the active map kept; the residency
bitmap is written; the event waits for the image's queue. A step that is not known changes nothing else, and the layers' modes are as the
lots stand. KV_PLAN (R318, R320, R324): once the pass before is over and the summaries are there, every slot of the step whose pages are at
hand is open at its length for it; a page that is not takes a free home and a summary entry of zeros; a request whose page the tenant's
quota does not allow is left out of the step, which ends where it was its only one; while a summary is missing the plan waits.
SUMMARY_RECEIVE (R314, R318) puts the summary into the member's table. Where the manual leaves it to the model: logs 21, 132, 133. -/
def Obligations.PassRows : Prop :=
  (∀ (s : State) (p : Pid) (payload : BitVec 56),
    let ps := s.parcel p
    let num := payload.toNat % 2 ^ 32
    s.running p = true → s.stepOf num = none → s.net.placeNext = none → s.net.treesDue = false →
    s.net.plan.all (fun (f : PlanFlow) => f.placed) = true →
    ∃ t, exec (.passStart p payload) s = .next t ∧ t.model.streamed = s.streamedNow ∧
      (∀ q : Pid, q ≠ p → t.parcel q = s.parcel q) ∧
      (t.parcel p).mapArm = false ∧ (t.parcel p).swp.step = BitVec.ofNat 64 num ∧ (t.parcel p).swp.param = ps.swp.param ∧
      (ps.mapArm = true → ps.stagedBad = true → (t.parcel p).map = ps.map ∧ (t.parcel p).mapBad = true ∧
        (s.core.epoch ≠ 0 → t.recov.count = s.recov.count + 1)) ∧
      (ps.mapArm = true → ps.stagedBad = false → (t.parcel p).map = ps.mapStaged ∧ (t.parcel p).mapBad = ps.mapBad) ∧
      (ps.mapArm = false → (t.parcel p).map = ps.map) ∧
      (t.parcel p).read 0x566000 8192 = t.residencyBitmap t.model.streamed ∧
      (∀ x, x < 0x566000 ∨ 0x568000 ≤ x → (t.parcel p).read x 1 = ps.read x 1) ∧
      (ps.swp.lastImageFault = none → ps.swp.wait = none → ps.swp.postWaiting = [] →
        eventFits ps.swp.events (BitVec.ofNat 64 (2 ^ 56 + payload.toNat)) = true →
        (t.parcel p).swp.events = ps.swp.events ++ [BitVec.ofNat 64 (2 ^ 56 + payload.toNat)])) ∧
  (∀ (s : State) (p : Pid),
    (∀ (num : BitVec 32) (st : Step), s.stepOf num.toNat = some st → s.running p = true → (s.parcel p).kv.nframe ≠ 0 →
      let ps := s.parcel p
      let pages := fun (slot : Nat) => ps.owned (st.lenOf slot / 256) ((st.lenOf slot + 31) / 256)
      (s.passOver p = false ∨ s.summariesReady p st = false → exec (.kvPlan p num) s = .next s) ∧
      (s.passOver p = true → s.summariesReady p st = true →
        ((∀ b ∈ st.slots, ∀ h ∈ ps.heads, (ps.kv.tableOf b.2 h).isSome = true ∧ ∀ n ∈ pages b.2, (ps.kv.page b.2 h n).isSome = true) →
          ∃ t, exec (.kvPlan p num) s = .next t ∧ t.net = s.net ∧ (∀ q : Pid, q ≠ p → t.parcel q = s.parcel q) ∧
          ∀ b ∈ st.slots, { slot := b.2, len := st.lenOf b.2, step := st.num } ∈ (t.parcel p).kv.open_) ∧
        (∀ (b : Nat × Nat) (h n : Nat) (r : Request), st.slots = [b] → ps.heads = [h] → pages b.2 = [n] →
          (ps.kv.tableOf b.2 h).isSome = true → ps.kv.page b.2 h n = none →
          (Sparse.get ({} : Tenant) s.serve.tenants ((s.slotTenant b.2).getD 0)).pages ≤ s.tenantHomes ((s.slotTenant b.2).getD 0) →
          st.owner = s.model.ordinal → s.requestAt b.2 = some r →
          ∃ t, exec (.kvPlan p num) s = .next t ∧ ∀ x ∈ t.serve.steps, x.num ≠ num.toNat))) ∧
    (∀ (slot head n tb h : Nat) (rest : List Nat),
      let k := (s.parcel p).kv
      k.page slot head n = none → k.tableOf slot head = some tb → k.freeHomes = h :: rest → (s.slot slot).from_ = none →
      s.tenantHomes ((s.slotTenant slot).getD 0) < (Sparse.get ({} : Tenant) s.serve.tenants ((s.slotTenant slot).getD 0)).pages →
      ∃ u, s.openPage p slot head n = some u ∧ (u.parcel p).kv.freeHomes = rest ∧
        { slot := slot, head := head, n := n, home := h, frame := none, sealed := false, refs := [slot] } ∈ (u.parcel p).kv.pages ∧
        u.rawRead ((s.parcel p).sumAddr tb) (144 * n) 144 = List.replicate 144 0) ∧
    (∀ (id : Nat) (f : Flit) (slot head n : Nat) (b : List Byte), s.flit id = some f → f.payload = .summary slot head n b →
      f.loc = .sink (.parcel p) →
      ((s.parcel p).takeTable slot head = none → exec (.summaryReceive p id) s = .next (s.dropFlit id)) ∧
      (∀ i q, (s.parcel p).takeTable slot head = some (i, q) → ∃ t, exec (.summaryReceive p id) s = .next t ∧
        (slot, head, n) ∈ (t.parcel p).kv.summaries ∧ t.rawRead (q.sumAddr i) (144 * n) b.length = b ∧
        t.net = (s.dropFlit id).net)))

/-- Areas of raw records (R149, R392): what is written is read back, every other byte of the area stays, and so does every byte of the
stack space outside the records that are touched, each of which passes its CRC afterwards. -/
def Obligations.RawAreas : Prop :=
  ∀ (s : State) (a o : Nat) (bs : List Byte), bs ≠ [] →
    let t := s.rawWrite a o bs
    let k0 := o / 64
    let k1 := (o + bs.length - 1) / 64
    t.rawRead a o bs.length = bs ∧
    (∀ i, i < o ∨ o + bs.length ≤ i → t.rawByte a i = s.rawByte a i) ∧
    (∀ x, x < a + 72 * k0 ∨ a + 72 * (k1 + 1) ≤ x → t.stackRead x 1 = s.stackRead x 1) ∧
    (∀ k, k0 ≤ k → k ≤ k1 → recordOk (t.stackRead (a + 72 * k) 72) = true)

/-- The RDMA rows (R396, R398, R428, R442 to R445): a write that the rules allow lands in the ring and moves the connection on, one of
CAN_HEAD being stamped with the engine time; one they forbid has no effect but a NAK and a failed connection, as an unsupported request;
a read returns the ring's bytes; an ECN-marked packet is answered with a CNP; packets carry the engine's address and the client's;
acknowledgements, retries and rates. Where the manual leaves it to the model: logs 25, 29, 94. -/
def Obligations.RdmaRows : Prop :=
  ∀ (s : State) (r : Fin 128) (off n psn : Nat) (bs : List Byte) (ecn : Bool),
    let c := s.conn r.val
    let cnp : List OutMsg := if ecn then [.cnp r.val (s.rcAddr r.val)] else []
    let fails := fun (i : Instr) (before : List OutMsg) (kind : Nat) => ∃ t, exec i s = .next t ∧
      t.conn r.val = { c with failed := true, unacked := [] } ∧
      t.out = s.out ++ before ++ [.nak r.val (s.rcAddr r.val) kind] ∧ t.stk = s.stk ∧
      ∀ q ∈ t.serve.reqs, q.ring = r.val → q.end_.isSome = true
    s.rcAddr r.val = { src := s.fab.ipPrefix ++ BitVec.ofNat 32 (0x80000000 + s.fab.engineId), dst := c.clientIp, qp := c.clientQpn } ∧
    (s.connUp r.val = true →
    (writeAllowed off bs.length = true → ∃ t, exec (.rdmaWrite ⟨r, ecn⟩ off bs) s = .next t ∧
      t.stk = (s.rawWrite (ringBase r.val) off bs).stk ∧ t.conn r.val = { c with psnIn := (c.psnIn + 1) % 2 ^ 24 } ∧ t.out = s.out ++ cnp ∧
      t.serve = { s.serve with stamps := s.serve.stamps ++ if off = 16 ∧ bs.length = 8 then
        [{ ring := r.val, upto := leNat bs, time := s.time.ns }] else [] }) ∧
    (writeAllowed off bs.length = false → fails (.rdmaWrite ⟨r, ecn⟩ off bs) cnp 2) ∧
    (off + n ≤ 0x4000000 → exec (.rdmaRead ⟨r, ecn⟩ off n) s = .next { s with out := s.out ++ cnp ++
      [.rdmaRead r.val (s.rcAddr r.val) (s.ringRead r.val off n)] }) ∧
    fails (.unsupportedRdmaOp r) [] 1 ∧
    (∃ t, exec (.rcAck r psn false) s = .next t ∧ t.out = s.out ∧ t.conn r.val = { c with
      retries := 0
      unacked := c.unacked.filter (fun (w : RcWrite) => (psn + 2 ^ 24 - w.psn) % 2 ^ 24 ≥ 2 ^ 23) }) ∧
    (∃ t, exec (.rcAck r psn true) s = .next t ∧ (t.conn r.val).failed = true) ∧
    (c.unacked ≠ [] →
      (c.retries < 7 → exec (.rcAckTimeout r) s = .next ((s.setConn r.val { c with retries := c.retries + 1 }).flushConn r.val true)) ∧
      (7 ≤ c.retries → exec (.rcAckTimeout r) s = .next s ∧
        ∃ t, exec (.rcRetryExhausted r) s = .next t ∧ (t.conn r.val).failed = true ∧
          ∀ q ∈ t.serve.reqs, q.ring = r.val → q.end_.isSome = true)) ∧
    exec (.cnpReceive r) s = .next (s.setConn r.val { c with rate := c.rate / 2 }) ∧
    exec (.rateRecovery r) s = .next (s.setConn r.val { c with rate := Nat.min 4096 (c.rate + 64) }))

/-- ADMISSION (R393 to R395, R401, R420): with one ring bound to a tenant, its next request is admitted into a free slot, opened from the
prefix it cites where it cites one, and REQ_TAIL moves on; a malformed request, or one with a stale handle, is refused and counted; while
the engine drains, a request completes at once with ILLEGAL_IN_STATE, the state in its entry: each completion is written to the status copy
and kept for late cancels; without a request to take, or in another state, nothing changes. CANCEL_SCAN and WAITING_DEADLINE (R396, R407,
R409): CAN_TAIL moves over what was read; no waiting request is left that is due to complete as cancelled, or for its deadline or what
was decided for it; the others stay, and each completed is kept for late cancels. Where the manual leaves it to the model: logs 26, 90. -/
def Obligations.AdmissionRows : Prop :=
  ∀ (s : State),
    (s.core.st ≠ .serving → s.core.st ≠ .draining → exec .admission s = .next s) ∧
    ((∀ r t, r < 128 → s.ringTenant r = some t → s.canTake r t = none) → exec .admission s = .next s) ∧
    (∀ (r : Fin 128) (tn slot : Nat), s.ringTenant r.val = some tn → (∀ q, q < 128 → q ≠ r.val → s.ringTenant q = none) →
      s.canTake r.val tn = some slot →
      let k := s.ringCtr r.val 1
      let b := s.ringRead r.val (0x10000 + 256 * (k % 1024)) 256
      let h := entField b 32 8
      let req := requestOf b r.val (k % 1024) tn slot none 0
      let lost := s.ringLost r.val (0x10000 + 256 * (k % 1024)) 256
      let refused := fun (u : State) (status code : Nat) => u.serve.reqs = s.serve.reqs ∧ u.ringCtr r.val 1 = (k + 1) % 2 ^ 64 ∧
        u.ringRead r.val (0x50000 + 64 * (k % 1024)) 64 = outEntry req.id 0 3 status code 0 (completionBody 0 s.time.ns 0 0)
          (Config.noStep s.serve.finished.length) 0 ∧
        u.serve.finished = s.serve.finished ++ [{
          ring := r.val
          entry := k % 1024
          id := req.id
          outAddr := req.outAddr
          outEntries := req.outEntries
          outRkey := req.outRkey
          seq := 1 }]
      (s.core.st = .draining → ∃ u, exec .admission s = .next u ∧ refused u 2 5 ∧ u.serve.refused = s.serve.refused) ∧
      (s.core.st = .serving →
        (h = 0 → s.requestBad b req none = false → lost = false → ∃ u, exec .admission s = .next u ∧
          u.serve.reqs = s.serve.reqs ++ [req] ∧ u.slot slot = { s.slot slot with used := true, len := 0, from_ := none } ∧
          u.ringCtr r.val 1 = (k + 1) % 2 ^ 64 ∧ u.out = s.out) ∧
        (∀ x, h ≠ 0 → s.citedPrefix tn (BitVec.ofNat 64 h) = some x →
          let from_ := requestOf b r.val (k % 1024) tn slot (some x) (s.slot x.slot).len
          (s.requestBad b from_ (some x) = false → lost = false → ∃ u, exec .admission s = .next u ∧
            u.serve.reqs = s.serve.reqs ++ [from_] ∧ u.ringCtr r.val 1 = (k + 1) % 2 ^ 64 ∧ u.out = s.out ∧
            u.slot slot = { s.slot slot with used := true, len := (s.slot x.slot).len, from_ := some x.slot }) ∧
          (s.requestBad b from_ (some x) = true ∨ lost = true → ∃ u, exec .admission s = .next u ∧ refused u 17 0 ∧
            u.serve.refused = Nat.min (s.serve.refused + 1) 65535)) ∧
        ((h = 0 ∨ s.citedPrefix tn (BitVec.ofNat 64 h) = none) → s.requestBad b req none = true ∨ lost = true →
          ∃ u, exec .admission s = .next u ∧ refused u 17 0 ∧ u.serve.refused = Nat.min (s.serve.refused + 1) 65535) ∧
        (h ≠ 0 → s.citedPrefix tn (BitVec.ofNat 64 h) = none → s.requestBad b req none = false → lost = false →
          ∃ u, exec .admission s = .next u ∧ refused u 15 0 ∧ u.serve.refused = Nat.min (s.serve.refused + 1) 65535))) ∧
    (s.core.st ≠ .serving → s.core.st ≠ .draining → s.core.st ≠ .loaded → exec .cancelScan s = .next s) ∧
    (s.core.st = .serving ∨ s.core.st = .draining ∨ s.core.st = .loaded → ∃ u, exec .cancelScan s = .next u ∧
      (∀ q ∈ u.serve.reqs, q.inStep = none → q.waitingEnd u.time.ns ≠ some 4) ∧
      (∀ r, r < 128 → (s.ringTenant r).isSome = true →
        u.ringCtr r 3 = (s.ringCtr r 3 + Nat.min 256 (s.ringCtr r 2 - s.ringCtr r 3)) % 2 ^ 64) ∧
      (∀ (r : Fin 128) (q : Request), (s.ringTenant r.val).isSome = true →
        (∀ n, n < 128 → n ≠ r.val → s.ringCtr n 2 ≤ s.ringCtr n 3) → s.ringCtr r.val 2 = s.ringCtr r.val 3 + 1 →
        let b := s.ringRead r.val (0x1000 + 64 * (s.ringCtr r.val 3 % 256)) 64
        s.serve.reqs = [q] → q.ring = r.val → q.entry = entField b 8 4 → q.id = BitVec.ofNat 64 (entField b 0 8) → q.inStep = none →
        q.deadline = 0 ∨ s.cancelStamp r.val (s.ringCtr r.val 3) < q.deadline →
        u.serve.reqs = [] ∧ (u.ringRead r.val (0x50000 + 64 * (q.entry % 1024)) 64)[13]? = some 4 ∧
          ∃ f ∈ u.serve.finished, f.ring = q.ring ∧ f.entry = q.entry ∧ f.id = q.id)) ∧
    (let due := fun (q : Request) => q.inStep.isNone && (q.waitingEnd s.time.ns).any (fun c => c != 4);
      (s.serve.reqs.map (fun (q : Request) => (q.ring, q.entry))).Nodup → ∃ u, exec .waitingDeadline s = .next u ∧
      u.serve.reqs = s.serve.reqs.filter (fun q => !due q) ∧
      (∀ q ∈ s.serve.reqs, due q = true → ∃ f ∈ u.serve.finished, f.ring = q.ring ∧ f.entry = q.entry ∧ f.id = q.id))

/-- STEP_SEND (R403, R404): a step that the owner sends has at most 256 requests and as many rows as the model allows; its descriptor is
written, its number keeps owners apart (log 30), and its requests are in it. SAMPLE (R405, R417): every SAMPLE row gets its token, one
whose logits are all minus infinity none. STEP_DONE_SEND (R406). Where the manual leaves it to the model: logs 28, 30, 32, 57. -/
def Obligations.StepRows : Prop :=
  ∀ (s : State) (num : BitVec 32) (st : Step) (d : Nat),
    (let f := s.offerOrder.foldl (fun (a : Fill) r => s.offerTo a r) ({} : Fill);
      s.core.st = .serving ∨ s.core.st = .draining → s.recov.unhosted = [] → s.descFree = some d → f.reqs ≠ [] →
      ∃ u x, exec .stepSend s = .next u ∧ u.serve.steps = s.serve.steps ++ [x] ∧ x.rows = f.rows ∧ x.owner = s.model.ordinal ∧
        x.num = (s.serve.nextStep * Nat.max 1 s.model.nengine + s.model.ordinal) % 2 ^ 32 ∧
        u.serve.nextStep = s.serve.nextStep + 1 ∧ f.reqs.length ≤ 256 ∧ f.rows.length ≤ s.model.vocab.stepRows ∧
        (∀ q ∈ u.serve.reqs, (∃ y ∈ f.reqs, y.slot = q.slot) → q.inStep = some x.num) ∧
        u.stk = (s.logRecord.1.rawWrite (descAddr d) 0 (descBytes x)).stk ∧ x.logAcked = !s.core.depValid ∧
        (s.core.depValid = true → u.core.ckpt = s.core.ckpt) ∧ (s.core.depValid = false → u.core.ckpt = s.core.ckpt ++ [x.record])) ∧
    (s.stepOf num.toNat = some st →
      (st.committed = false → (∃ w ∈ st.rows, w.sample = true) →
        (∀ w i, (w, i) ∈ st.rows.zipIdx → w.sample = true → (s.logitsOf num.toNat i).isSome = true) →
        ∃ u x, exec (.sample num) s = .next u ∧ u.stepOf num.toNat = some x ∧
          ∀ w i z, (w, i) ∈ st.rows.zipIdx → w.sample = true → s.logitsOf num.toNat i = some z →
            x.samples.lookup i = some ((s.rowToken st i w z).getD 0) ∧ (s.rowToken st i w z = none → i ∈ x.nan)) ∧
      (st.committed = false → st.doneSent = false → st.spoiled = false → st.need ≤ st.rows.length → st.logAcked = true →
        st.sampled = true → s.stepReports num.toNat = [] →
        (∀ x ∈ s.parcels, ∀ h ∈ x.2.kv.homeWrites, h.step = num.toNat → h.run = st.replays → h.n = 0) →
        (st.owner = s.model.ordinal → ∃ u x, exec (.stepDoneSend num) s = .next u ∧ u.stepOf num.toNat = some x ∧ x.doneSent = true ∧
          x.doneFrom = st.doneFrom ++ [st.owner] ∧ u.parcels = s.parcels) ∧
        (st.owner ≠ s.model.ordinal → exec (.stepDoneSend num) s = .next ((s.modStep num.toNat (fun x =>
          { x with doneSent := true })).sendStepMsg st.owner 5 num.toNat (Config.stepDoneBody num.toNat st.samples)))))

/-- COMMIT_DECISION, COMMIT and COMMIT_APPLY (R313, R406 to R409): the owner decides at T_c, a request past its deadline without tokens,
and writes its commit record; nothing commits before that is acknowledged; after the commit point the step and its page locks are gone
and no waiting request is due; elsewhere the step's slots take their new lengths and its staged rows are gone. STEP_REPLAY, STEP_ABANDON
and DRAIN_LIMIT_EXPIRY (R200, R385, R411, R560, R561): a step with a fault is reissued with the same number and rows; a repeated image
fault or lost data ends it, as the owner's giving it up does; at the drain limit the engine is LOADED and no request waits. Where the
manual leaves it to the model: logs 32, 33, 52, 60. -/
def Obligations.CommitRows : Prop :=
  (∀ (s : State) (num : BitVec 32) (st : Step), s.stepOf num.toNat = some st →
    (st.owner = s.model.ordinal → st.committed = false → st.spoiled = false → s.stepReports num.toNat = [] →
      (st.tc = none → st.sampled = true → (∀ k, k < Nat.max 1 s.model.nengine → k ∈ st.doneFrom) →
        let s1 := s.readCancels
        ∃ u x, exec (.commitDecision num) s = .next u ∧ u.stepOf num.toNat = some x ∧ x.tc = some s.time.ns ∧
          x.outcomes = (s1.stepRequests st).map (s1.outcomeOf st s.time.ns) ∧
          x.commitRec = some s1.core.logNext ∧ x.commitAcked = !s1.core.depValid ∧
          ∀ r ∈ s1.stepRequests st, r.cancel = none → r.deadline ≠ 0 → r.deadline ≤ s.time.ns →
            ∃ o ∈ x.outcomes, o.slot = r.slot ∧ o.status = some 3 ∧ o.tokens = [] ∧ o.len = st.lenOf r.slot) ∧
      (st.commitAcked = false → exec (.commit num) s = .next s) ∧
      (st.tc.isSome = true → st.commitAcked = true → ∃ u, exec (.commit num) s = .next u ∧ (∀ x ∈ u.serve.steps, x.num ≠ num.toNat) ∧
        (∀ k, ∀ l ∈ (u.dist k).locks, l.step ≠ num.toNat) ∧
        ∀ q ∈ u.serve.reqs, q.inStep = none → q.waitingEnd u.time.ns = none)) ∧
    (st.owner ≠ s.model.ordinal → st.committed = true → (st.outcomes.map (fun (o : Outcome) => o.slot)).Nodup →
      ∃ u, exec (.commitApply num) s = .next u ∧ (∀ x ∈ u.serve.steps, x.num ≠ num.toNat) ∧
        ∀ o ∈ st.outcomes, (u.slot o.slot).len = o.len ∧
          ∀ (p : Pid), ∀ r ∈ (u.parcel p).kv.staged, r.step = num.toNat → r.slot ≠ o.slot)) ∧
  (∀ (s : State) (num : BitVec 32) (st : Step),
    (s.stepOf num.toNat = some st → st.owner = s.model.ordinal → st.committed = false →
      (let rs := s.stepReports num.toNat
        let again := (rs.filterMap (fun r => imageFault r.2)).any (fun f => st.image.contains f);
        st.spoiled = true ∨ rs ≠ [] → (∀ r ∈ rs, hardFault r.2 = false ∧ ∀ a n, r.2 ≠ .data (.record a) n) →
        (again = false → (∀ r ∈ rs, r.2.isLost = false) → ∃ u x, exec (.stepReplay num) s = .next u ∧
          u.stepOf num.toNat = some x ∧ x.rows = st.rows ∧ x.replays = st.replays + 1 ∧ x.doneFrom = [] ∧ x.samples = [] ∧ x.tc = none ∧
          x.spoiled = false ∧ u.serve.replays = Nat.min (s.serve.replays + 1) (2 ^ 32 - 1)) ∧
        (again = true ∨ (∃ r ∈ rs, r.2.isLost = true) → ∃ u, exec (.stepReplay num) s = .next u ∧
          ∀ x ∈ u.serve.steps, x.num ≠ num.toNat)) ∧
      (st.since = 0 ∨ s.time.ns < st.since + 100000000 → exec (.stepAbandon num) s = .next s) ∧
      (st.since ≠ 0 → st.since + 100000000 ≤ s.time.ns →
        ∃ u, exec (.stepAbandon num) s = .next u ∧ ∀ x ∈ u.serve.steps, x.num ≠ num.toNat)) ∧
    (∀ ms, s.core.st = .draining → s.core.drainMs = some ms → s.core.drainFrom + 1000000 * ms ≤ s.time.ns → ∃ u, exec .drainLimitExpiry s = .next u ∧
      u.core = { s.core with st := .loaded, drainMs := none } ∧ ∀ q ∈ u.serve.reqs, q.inStep ≠ none ∧ q.end_.isSome = true))

/-! ### Avenue messages, links and engine time -/

/-- What happens to a message as it arrives (R427, R429, R431, R434): a bad header is counted and the message dropped; one for another
engine is not taken; one whose number was received before is dropped and counted, and acknowledged again; nothing else changes. Where the
manual leaves it to the model: logs 65, 92. -/
def Obligations.AvenueChecks : Prop :=
  ∀ (s : State) (m : AveIn) (b : StepDoneBody) (lens : List (Nat × Nat)) (src : Nat),
    let numbered : List (Nat × Instr) := [(1, .dataMessage m), (4, .step m), (5, .stepDone m b), (6, .commitMessage m lens), (7, .mgmt m src)]
    let rows := numbered ++ [(2, .ack m), (3, .load m), (8, .probe m)]
    m.onMgmt = false → s.fab.ok = true →
    (s.linkLive m.link = false → ∀ x ∈ rows, exec x.2 s = .next s) ∧
    (s.linkLive m.link = true →
      (∀ x ∈ rows, s.aveBad x.1 m = true → exec x.2 s =
        .next { s with fab := { s.fab with badHdr := Nat.min (s.fab.badHdr + 1) (2 ^ 32 - 1) } }) ∧
      (∀ x ∈ rows, s.aveBad x.1 m = false → m.hdr.dstE.toNat ≠ s.fab.engineId → exec x.2 s = .next s) ∧
      (∀ x ∈ numbered, s.aveBad x.1 m = false → m.hdr.dstE.toNat = s.fab.engineId → m.hdr.srcE ≠ 0x3FFF →
        let p := s.peer m.hdr.srcE.toNat
        atOrBelow m.hdr.mseq.toNat p.rxCum = true ∨ m.hdr.mseq.toNat ∈ p.rxAbove →
        ∃ t, exec x.2 s = .next t ∧ t.fab.dupDrop = Nat.min (s.fab.dupDrop + 1) (2 ^ 32 - 1) ∧
          t.peer m.hdr.srcE.toNat = { p with ackDue := true } ∧ t.serve = s.serve ∧ t.net = s.net ∧ t.parcels = s.parcels))

/-- Frames (R428, R431): addresses and ports of a message's frame on a link, as RoCE v2 or raw; the far link is free. DATA, ACK, ACK_SEND
and PROBE (R434, R438): an accepted record is injected toward the parcel it names, or the step is replayed; an ACK
releases what it covers; an ACK that is due says what was received; a PROBE starts its sender's numbering. STEP, STEP_DONE and
COMMIT_MESSAGE (R404, R406, R411): an accepted descriptor of a new step of another owner is kept, and written once it is whole; a
STEP_DONE adds the engine and its tokens to the owner's step; a COMMIT gives the step its slots' lengths. Where the manual leaves it to
the model: logs 18, 92, 138. -/
def Obligations.AvenueRows : Prop :=
  (∀ (s : State) (l typ : Nat) (h : AveHdr) (body : List Byte),
    let far := (Config.destLink (h.dstE.toNat % 2 ^ 14) l).toNat
    let near := 128 * s.fab.engineId + l
    let other := 128 * (h.dstE.toNat % 2 ^ 14) + far
    s.aveFrame l (aveBytes typ h body) =
      if s.fab.encap = 1 then .ud (s.fab.ipPrefix ++ BitVec.ofNat 32 near) (s.fab.ipPrefix ++ BitVec.ofNat 32 other)
        (0xC000 + h.tp.toNat / 16) 4791 2 s.fab.qKey
      else .raw (0x024C57#24 ++ BitVec.ofNat 24 near) (0x024C57#24 ++ BitVec.ofNat 24 other) s.fab.prio 0x88B5) ∧
  (∀ (s : State) (m : AveIn) (e : BitVec 14),
    (∀ r, (s.aveTake 1 m).2 = true → aveRecords m.hdr.nrec.toNat m.body = [r] →
      let s1 := (s.aveTake 1 m).1
      let flow : Flow := { eng := m.hdr.srcE.toNat, lp := m.hdr.srcP.toNat, ch := m.hdr.chm.toNat % 64 }
      (s.net.place.lookup m.hdr.dstP.toNat = none → exec (.dataMessage m) s = .next s1.spoil) ∧
      (∀ (q : Pid) (k : PortId) (t : State), s.net.place.lookup m.hdr.dstP.toNat = some q → k.val = m.link / 8 % 16 →
        s1.injectFor (m.hdr.tp.toNat % 16) 1 flow.ch m.hdr.fseq.toNat 0 (.parcel q) (.port k)
          (.record flow (m.hdr.chm.getLsbD 6) r m.hdr.aux.toNat) = some t →
        exec (.dataMessage m) s = .next t)) ∧
    ((s.aveCheck 2 m).2 = true →
      let p := s.peer m.hdr.srcE.toNat
      let left := p.unacked.filter (fun (u : Unacked) => !ackCovers m.hdr.aux.toNat m.hdr.aux2 u.mseq)
      left.all (fun u => decide (ackLater m.hdr.aux.toNat m.hdr.aux2 u.mseq < 3)) = true →
      exec (.ack m) s = .next (s.setPeer m.hdr.srcE.toNat { p with unacked := left, unreach := false })) ∧
    (let p := s.peer e.toNat
      let l := s.linkFor s.liveLinks p.txNext;
      p.ackDue = true → s.fab.ok = true → s.linkOpen l = true → ∃ t h, exec (.ackSend e) s = .next t ∧
        t.out = s.out ++ [.ave l (s.aveFrame l (aveBytes 2 h [])) (aveBytes 2 h [])] ∧ h.aux = BitVec.ofNat 32 p.rxCum ∧
          (t.peer e.toNat).ackDue = false ∧
        ∀ i, i < 32 → h.aux2.getLsbD i = p.rxAbove.contains ((p.rxCum + 1 + i) % 2 ^ 32)) ∧
    ((s.aveCheck 8 m).2 = true → m.hdr.srcE ≠ 0x3FFF → exec (.probe m) s = .next (s.setPeer m.hdr.srcE.toNat
      { s.peer m.hdr.srcE.toNat with rxCum := m.hdr.mseq.toNat, rxAbove := [], ackDue := true, unreach := false }))) ∧
  (∀ (s : State) (m : AveIn) (body : StepDoneBody) (lens : List (Nat × Nat)),
    let num := m.hdr.aux.toNat
    let b := payloadOf m
    (∀ d, (s.aveTake 4 m).2 = true → s.stepOf num = none → s.descFree = some d → entField b 4 4 ≠ s.model.ordinal →
      ∃ t x, exec (.step m) s = .next t ∧ t.stepOf num = some x ∧ x.owner = entField b 4 4 ∧ x.desc = d ∧ x.need = entField b 12 4 ∧
        x.rows = (rowsOf (b.drop 64)).take (entField b 12 4) ∧ x.committed = false ∧
        (x.need ≤ x.rows.length → t.rawRead (descAddr d) 0 (descBytes x).length = descBytes x)) ∧
    (∀ x, s.stepOf num = some x →
      ((s.aveTake 5 m).2 = true → x.owner = s.model.ordinal → x.committed = false →
        ∃ t y, exec (.stepDone m body) s = .next t ∧ t.stepOf num = some y ∧
          y.doneFrom = x.doneFrom ++ s.others.filter (fun o => s.engineOf o == m.hdr.srcE.toNat) ∧ y.samples = x.samples ++ body.toks) ∧
      ((s.aveTake 6 m).2 = true → x.owner ≠ s.model.ordinal → x.committed = false →
        ∃ t y, exec (.commitMessage m lens) s = .next t ∧ t.stepOf num = some y ∧ y.committed = true ∧
          y.outcomes.map (fun (o : Outcome) => (o.slot, o.len)) = lens)))

/-- MGMT, AVENUE_V1_MESSAGE and REASSEMBLY_TIMEOUT (R439, R450, R615): a fragment is kept until its message is whole, a body too short
or with a bad length discards what is held for its transaction, a timeout discards it; a bad v1 header is counted. MESSAGE_CLOSE,
RETRANSMIT, REMOTE_PAUSE and PAUSE_SPILL (R382, R434, R435, R437, R445): the records of a flow that follow each other leave as one
message; an unacknowledged message goes out on another live link, after eight times its peer is unreachable; a pause holds a port's
frames, and those held for more than 1 ms wait as records for its spill area, which they reach as writes on VC3. Where the manual leaves
it to the model: logs 55, 60, 64, 65. -/
def Obligations.MessageRows : Prop :=
  (∀ (s : State) (m : AveIn) (v : AveV1In) (src : Nat) (xid : Word),
    (∃ t, exec (.reassemblyTimeout xid src) s = .next t ∧ t.held xid src = none ∧
      ∀ k n, k ≠ xid ∨ n ≠ src → t.held k n = s.held k n) ∧
    (s.answers = true → (s.aveTake 7 m).2 = true →
      (∀ f, fragOf (payloadOf m) = some f → s.held f.xid src = none → s.mgmt.reasm.length < 16 → f.bytes.length < f.total →
        f.off + f.bytes.length ≤ f.total → ∃ t, exec (.mgmt m src) s = .next t ∧
          t.held f.xid src = some { xid := f.xid, src := src, total := f.total, v1 := false, onMgmt := m.onMgmt, parts := [(f.off, f.bytes)] } ∧
          t.core = s.core) ∧
      (∀ k, fragOf (payloadOf m) = none → fragXid (payloadOf m) = some k →
        ∃ t, exec (.mgmt m src) s = .next t ∧ t.held k src = none)) ∧
    (v.onMgmt = true ∨ s.fab.ok = true →
      (aveV1Bad v = true → exec (.avenueV1Message v) s =
        .next { s with fab := { s.fab with badHdr := Nat.min (s.fab.badHdr + 1) (2 ^ 32 - 1) } }) ∧
      (aveV1Bad v = false → v.dstE.toNat = s.fab.engineId →
        (v.typ = 7 → exec (.avenueV1Message v) s = .next (s.mgmtBody v.src true v.onMgmt (v.body.take v.length.toNat) v.flashOk)) ∧
        (v.typ = 8 → v.onMgmt = false → v.srcE ≠ 0x3FFF → ∃ t, exec (.avenueV1Message v) s = .next t ∧
          (t.peer v.srcE.toNat).rxCum = v.seq.toNat ∧ (t.peer v.srcE.toNat).rxAbove = [])))) ∧
  (∀ (s : State) (k : PortId) (peer : BitVec 14) (mseq : BitVec 32),
    let x := s.port k.val
    let p := s.peer peer.toNat
    (∀ r rest, s.egressAt k = r :: rest → s.fab.ok = true → (s.peer r.key.dstE).probed = true →
      let links := s.liveLinks.filter (fun l => l / 8 == k.val)
      let mine := (r :: rest).filter (fun (y : EgressRec) => y.key == r.key)
      let first := mine.foldl (fun (a : Nat) (y : EgressRec) => Nat.min a y.fseq) r.fseq
      let run := runFrom first (if s.fab.encap = 1 then 56 else 112) mine
      let l := s.linkFor links (s.peer r.key.dstE).txNext
      links ≠ [] → s.linkOpen l = true → ∃ t h, exec (.messageClose k) s = .next t ∧
        t.net.flits = s.net.flits.filter (fun (f : Flit) => !run.any (fun (y : EgressRec) => y.flit == f.id)) ∧
        t.out = s.out ++ [.ave l (s.aveFrame l (aveBytes 1 h (run.flatMap EgressRec.bytes))) (aveBytes 1 h (run.flatMap EgressRec.bytes))] ∧
          h.fseq = BitVec.ofNat 32 first ∧
        h.aux = BitVec.ofNat 32 r.key.step ∧ h.mseq = BitVec.ofNat 32 (s.peer r.key.dstE).txNext ∧
        (t.peer r.key.dstE).txNext = ((s.peer r.key.dstE).txNext + 1) % 2 ^ 32) ∧
    (∀ u, p.unacked.find? (fun (y : Unacked) => y.mseq == mseq.toNat) = some u →
      (u.resent < 8 → ∃ t v, exec (.retransmit peer mseq) s = .next t ∧ t.fab.retx = Nat.min (s.fab.retx + 1) (2 ^ 32 - 1) ∧
        v ∈ (t.peer peer.toNat).unacked ∧ v.mseq = u.mseq ∧ v.bytes = u.bytes ∧ v.resent = u.resent + 1 ∧
        ((∃ n ∈ s.liveLinks, n ≠ u.link) → (∀ n ∈ s.liveLinks, 1 ≤ (modeLinks (s.port (n / 8)).mode).2) → v.link ∈ s.liveLinks ∧ v.link ≠ u.link) ∧
        (v.sent = true → t.out = s.out ++ [.ave v.link (s.aveFrame v.link u.bytes) u.bytes])) ∧
      (8 ≤ u.resent → ∃ t, exec (.retransmit peer mseq) s = .next t ∧ (t.peer peer.toNat).unreach = true ∧
        (t.peer peer.toNat).unacked = [] ∧ t.fab.unreach = Nat.min (s.fab.unreach + 1) 65535)) ∧
    (∃ t, exec (.remotePause k true) s = .next t ∧ t.port k.val = { x with
      paused := true, pauseSince := if x.paused then x.pauseSince else s.time.ns } ∧ t.out = s.out) ∧
    (∃ t, exec (.remotePause k false) s = .next t ∧ t.port k.val = { x with paused := false, spilled := [] }) ∧
    (x.paused = true → x.pauseSince + 1000000 < s.time.ns → s.heldFrames k.val ≠ [] → ∃ t, exec (.pauseSpill k) s = .next t ∧
      let bs := (Config.portSpill k.val (s.heldFrames k.val)).take 0x400000
      t.port k.val = { x with
        spilled := List.range (s.heldFrames k.val).length
        spillQueue := x.spillQueue ++ (pieces 72 bs.length bs).zipIdx.map (fun r => (0x44000000 + k.val * 0x400000 + 72 * r.2, r.1)) } ∧
      t.stk = s.stk))

/-- LINK_DOWN, LINK_UP, PORT_LOST, PORT_OSC_FAIL, TRANSCEIVER_INSERT and EYE_MEASURE (R425, R434, R446, R449, R501, R529, R536): the
link leaves or joins multipath, connections go to a live link, and a port under traverse takes its next link down; a port with no live
link or no route loses what is in it; eye widths are kept. PTP_MESSAGE and PTP_SYNC_LOSS (R447, R448, R451; log 48 for the sign of an
offset): in SERVING and DRAINING, and for an offset of at most 1 us or with the counter ahead, the offset is slewed away; else the
counter is stepped; without a source it runs free. Where the manual leaves it to the model: logs 48, 85, 94. -/
def Obligations.LinkRows : Prop :=
  (∀ (s : State) (l : Fin 128) (k : PortId) (m : BitVec 8) (eyes : List (BitVec 8)),
    let x := s.port (l.val / 8)
    let j := l.val % 8
    (x.linkUp.getLsbD j = true → ∃ t, exec (.linkDown l) s = .next t ∧
      (t.port (l.val / 8)).linkUp = x.linkUp &&& ~~~ (BitVec.ofNat 8 (2 ^ j)) ∧
      (∀ n, n ≠ l.val / 8 → t.port n = s.port n) ∧ t.fab.linkDown = Nat.min (s.fab.linkDown + 1) 65535 ∧
      (t.liveLinks ≠ [] → ∀ r, (t.conn r).bound = true → (t.conn r).failed = false → t.linkLive (t.conn r).link = true)) ∧
    (s.fab.ok = true → j < (modeLinks x.mode).1 → x.oscFail = false → x.linkUp.getLsbD j = false →
      (∀ y ∈ s.cal.active, y.scope = 3 → y.port = l.val / 8 → ∀ n ∈ y.todo, n / 8 = y.port ∧ n ≠ l.val) → ∃ t, exec (.linkUp l m eyes) s = .next t ∧
      (t.port (l.val / 8)).linkUp.getLsbD j = true ∧ t.linkLive l.val = true ∧ (∀ n, n ≠ l.val / 8 → t.port n = s.port n) ∧
      (∀ i ∈ x.lanesOf j, i < 8 → Sparse.get 0 (t.port (l.val / 8)).eyes i = eyes.getD (i - modeLanes x.mode * j) 0) ∧
      match s.cal.active.find? (fun (y : Trav) => y.scope == 3 && y.port == l.val / 8 && !y.todo.isEmpty) with
      | none => (t.port (l.val / 8)).linkUp = x.linkUp ||| BitVec.ofNat 8 (2 ^ j)
      | some y => ∀ n rest, y.todo = n :: rest → (t.port (l.val / 8)).linkUp.getLsbD (n % 8) = false) ∧
    (let reachable := (List.range 60).any (fun d => s.live d && s.portLive d k);
      (reachable = true → exec (.portLost k) s = .next s) ∧
      (reachable = false → ∃ t, exec (.portLost k) s = .next t ∧ (∀ f ∈ t.net.flits, f.loc ≠ .sink (.port k)) ∧
        (∀ st ∈ t.serve.steps, st.committed = false → st.spoiled = true))) ∧
    (s.core.st ≠ .off → (s.port k.val).oscFail = false → ∃ t, exec (.portOscFail k) s = .next t ∧
      (t.port k.val).oscFail = true ∧ (t.port k.val).linkUp = 0 ∧ ∀ n, n ≠ k.val → t.port n = s.port n) ∧
    (s.core.st ≠ .off → (s.port k.val).linkUp = 0 → exec (.transceiverInsert k m) s =
      .next (s.setPort k.val { s.port k.val with laneBad := m, pol := 0 })) ∧
    (let up := ((List.range 8).filter (fun i => (s.port k.val).linkUp.getLsbD i)).flatMap (s.port k.val).lanesOf;
      up ≠ [] → ∃ t, exec (.eyeMeasure k eyes) s = .next t ∧
        ∀ i, i < 8 → Sparse.get 0 (t.port k.val).eyes i = if i ∈ up then eyes.getD i 0 else 0)) ∧
  (∀ (s : State) (o : PtpOps),
    exec .ptpSyncLoss s = .next { s with time := { s.time with sync := false, slew := 0 } } ∧
    (s.core.st ≠ .off → s.ptpPort o.port = true →
      let t1 := { s.time with offset := satOffset o.offset, srcPort := o.port, sync := true }
      (s.core.st = .serving ∨ s.core.st = .draining ∨ -1000 ≤ o.offset →
        exec (.ptpMessage o) s = .next { s with time := { t1 with slew := o.offset } }) ∧
      (s.core.st ≠ .serving → s.core.st ≠ .draining → o.offset < -1000 →
        exec (.ptpMessage o) s = .next { s with time := { t1 with ns := s.time.ns + o.offset.natAbs, slew := 0 } })))

/-! ### Power, clocks and cooling -/

/-- METER_WINDOW, CAP_LOOP, ENERGY_SAMPLE and PAD_CHECK (R458, R461 to R463, R467, R468, R476, R477, R482): the effective ration and the
guard of the next window; surplus windows only at divided-by-3 with a settled supply, a mean of at most 150/16 of the ration in force and
no notice; the cap factor falls by 16 above the cap and rises by 4 below 97 % of it; energy adds up; a pad group is suspect at 100 mV, or
for eight samples at 25 mV. Where the manual leaves it to the model: logs 1, 70. -/
def Obligations.MeterRows : Prop :=
  ∀ (s : State) (p : Pid) (d : DistId) (avg p1ms pmax vin iin : Nat) (excess : List Int),
    let ps := s.parcel p
    let x := s.dist p.d.val
    let re := ps.meter.ration * s.factor p / 256
    (∃ t, exec (.meterWindow p avg) s = .next t ∧ s.onlyParcel t p ∧
      let q := t.parcel p
      q.meter.eff = (if ps.reg.clamp then Nat.min re 260 else re) ∧ q.meter.scale = s.factor p ∧
      q.meter.windowI = Nat.min avg 4095 ∧ q.reg.iout = Nat.min avg 4095 ∧ q.meter.guard = decide (10 * q.meter.eff < Nat.min avg 4095) ∧
      q.meter.modeApplied = (if x.st = .active ∧ x.busy = false then x.mode else ps.meter.modeApplied) ∧
      (q.meter.surp = true → q.meter.modeApplied = 1 ∧ ps.meter.modeApplied = 1 ∧ 16 * Nat.min avg 4095 ≤ 150 * ps.meter.eff ∧
        x.notice = false ∧ ps.reg.vset = ps.health.vmin3 + 4) ∧
      (ps.reg.on = true → q.meter.modeApplied ≠ ps.meter.modeApplied → q.reg.vset = ps.health.vCode q.meter.modeApplied) ∧
      q.meter.ration = ps.meter.ration ∧ q.meter.held = ps.meter.held ∧ q.sram = ps.sram ∧ q.swp = ps.swp) ∧
    (let ce := ({ s with pwr := { s.pwr with p1ms := p1ms, pmax := pmax, vin := vin, iin := iin } } : State).capEff
      ∃ t, exec (.capLoop p1ms pmax vin iin) s = .next t ∧ t.pwr.p1ms = p1ms ∧ t.pwr.pmax = pmax ∧ t.pwr.vin = vin ∧ t.pwr.iin = iin ∧
        t.pwr.energy = s.pwr.energy ∧ t.pwr.cap = s.pwr.cap ∧
        t.pwr.sCap = (if ce < p1ms then s.pwr.sCap - 16 else if 100 * p1ms < 97 * ce then Nat.min 256 (s.pwr.sCap + 4) else s.pwr.sCap) ∧
        (ce < p1ms → s.pwr.sCap ≠ 0 → t.pwr.capSteps = Nat.min (s.pwr.capSteps + 1) 65535) ∧
        (s.core.epoch ≠ 0 → ce < p1ms → s.pwr.sCap ≤ 16 → s.pwr.capUnmet = none → t.recov.count = s.recov.count + 1)) ∧
    exec (.energySample vin iin) s = .next { s with pwr := { s.pwr with vin := vin, iin := iin, energy := s.pwr.energy + vin * iin } } ∧
    (let c := Sparse.get ({ a := {}, b := {} } : Copies DistRec) s.nv.calDist d.val;
      forwards (s.dist d.val).st = true → c.aOk = true ∨ c.bOk = true →
      ∃ t, exec (.padCheck d excess) s = .next t ∧ ∀ g e, g < 16 → excess[g]? = some e →
        let n := if e > 25 then Nat.min 8 (Sparse.get 0 (s.dist d.val).padCounts g + 1) else 0
        Sparse.get 0 (t.dist d.val).padCounts g = n ∧
        (t.dist d.val).suspect.getLsbD g = ((s.dist d.val).suspect.getLsbD g || decide (8 ≤ n) || decide (e > 100)))

/-- FEEDER_TRIP, PHASE_LOST and REGULATOR_FAULT (R454, R458, R459, R480, R483): a district that trips is TRIPPED with its cause, without
power and warden; a parcel with four phases runs on, with three its ration is clamped and it is fenced; a regulator fault fences its
parcel and turns it off. The clock rows (R488, R489, R492, R499, R500): REF0 while it is good, else REF1, else holdover, each change
counted; a node that locks; one that does not leaves its district DARK for good; one that fails opens its feeder. Where the manual leaves
it to the model: logs 73, 74, 75, 76. -/
def Obligations.FaultRows : Prop :=
  (∀ (s : State) (p : Pid) (d : DistId) (k : Fin 5) (atLimit : Bool),
    let r := (s.parcel p).reg
    let r1 := { r with phOk := r.phOk &&& ~~~ (BitVec.ofNat 5 (2 ^ k.val)) }
    s.load.phase ≠ 4 → s.load.phase ≠ 5 →
    (forwards (s.dist d.val).st = true → s.core.st ≠ .boot → s.core.epoch = 0 ∨ d.val ≠ s.core.registry →
      ∃ t, exec (.feederTrip d) s = .next t ∧ (t.dist d.val).st = .tripped ∧ (t.dist d.val).cause = 13 ∧ (t.dist d.val).live = false ∧
        (t.dist d.val).trips = Nat.min ((s.dist d.val).trips + 1) 255 ∧ (t.dist d.val).busy = false) ∧
    (r.on = true ∨ r.ramp = true → r.phOk.getLsbD k.val = true →
      (4 ≤ r1.phases → ∃ t, exec (.phaseLost p k) s = .next t ∧ (t.parcel p).reg = r1 ∧ (t.parcel p).swp = (s.parcel p).swp ∧
        t.pwr.phaseLost = Nat.min (s.pwr.phaseLost + 1) 65535) ∧
      (r1.phases < 4 → ∃ t, exec (.phaseLost p k) s = .next t ∧ (t.parcel p).reg.clamp = true ∧ (t.parcel p).health.bollard = true)) ∧
    (r.on = true → ∃ t, exec (.regulatorFault p atLimit) s = .next t ∧
      (t.parcel p).reg = { ilim := atLimit, ctrlFail := !atLimit } ∧ (t.parcel p).health.bollard = true)) ∧
  (∀ (s : State) (d : DistId) (ref1 : Bool),
    let x := s.dist d.val
    (s.core.st ≠ .off → ∀ i good, (i, good) ∈ [(Instr.refInputFail ref1, false), (.refInputGood ref1, true)] →
      ∃ t, exec i s = .next t ∧ t.clk.ref0Ok = (if ref1 then s.clk.ref0Ok else good) ∧ t.clk.ref1Ok = (if ref1 then good else s.clk.ref1Ok) ∧
        t.clk.sel = (if t.clk.ref0Ok then 0 else if t.clk.ref1Ok then 1 else 3) ∧
        t.clk.refSwitch = (if t.clk.sel = s.clk.sel then s.clk.refSwitch else Nat.min (s.clk.refSwitch + 1) 65535) ∧
        (t.clk.sel = 3 → t.clk.lock = false) ∧ t.parcels = s.parcels ∧ t.dists = s.dists) ∧
    (forwards x.st = true ∨ x.switchOn.isSome = true → ∃ t, exec (.nodeLock d) s = .next t ∧
      (t.dist d.val).nodeLock = true ∧ (t.dist d.val).aligned = true ∧ (t.dist d.val).st = x.st ∧ t.parcels = s.parcels) ∧
    (x.switchOn.isSome = true → ∃ t, exec (.meshLockFail d) s = .next t ∧ (t.dist d.val).st = .dark ∧ (t.dist d.val).nodeFail = true ∧
      (t.dist d.val).lockBarred = true ∧ (t.dist d.val).switchOn = none ∧ (t.dist d.val).busy = false) ∧
    (forwards x.st = true → s.core.st ≠ .boot → s.core.epoch = 0 ∨ d.val ≠ s.core.registry → s.load.phase ≠ 4 → s.load.phase ≠ 5 →
      ∃ t, exec (.nodeFail d) s = .next t ∧ (t.dist d.val).st = .tripped ∧ (t.dist d.val).nodeFail = true ∧ (t.dist d.val).cause = 13))

/-- SENSOR_SAMPLE, THERMAL_STEP and TEMP_DISAGREE (R504 to R508): sites take the higher of their working sensors, T_max the highest of
all, a notice comes at 95.0 C and goes below 92.0 C, the second sample at 115 C trips the district; the throttle factor's steps; a pair
disagrees only while both sensors work. The flow rows (R510, R511, R514 to R517, R520): a good meter gives Q and the flow factor; a failed
meter beside an open or failed switch is flow lost, which opens the valve fully and is a FAULT with COOLANT_LOST; then the hottest
district trips first. The coolant's notices and forecasts (R512, R513, R517 to R519): reversed hoses limit the cap to 12,000 W; inlet
range, leak and saturated valve; the forecast of the next 100 ms is no less than the present power and none is above the cap in force; the
message has 64 bytes and a number of its own. Where the manual leaves it to the model: logs 50, 51, 81, 82, 83. -/
def Obligations.CoolingRows : Prop :=
  (∀ (s : State) (d : DistId) (k : Fin 4) (a b : SiteReadings) (ps : List (Fin 144 × Reading)) (dis : Bool),
    let x := s.dist d.val
    let y := x.sample a b []
    forwards x.st = true →
    (y.trip115 < 2 → ∃ t, exec (.sensorSample d a b ps) s = .next t ∧
      let z := t.dist d.val
      z.sites = y.sites ∧ z.tSite = y.tSite ∧ z.trip115 = y.trip115 ∧ z.st = x.st ∧ y.tSite ≤ z.tMax ∧ (950 ≤ z.tMax → z.notice = true) ∧
      (z.tMax < 920 → z.notice = false) ∧ (920 ≤ z.tMax → z.tMax < 950 → z.notice = x.notice) ∧
      ((ps.map Prod.fst).Nodup → ∀ e ∈ ps,
        (t.parcel { d := d, p := e.1 }).health = (s.parcel { d := d, p := e.1 }).health.sample e.2 ∧
        ((t.parcel { d := d, p := e.1 }).health.tempFail = false → (t.parcel { d := d, p := e.1 }).health.temp ≤ z.tMax))) ∧
    (2 ≤ y.trip115 → s.core.st ≠ .boot → s.core.epoch = 0 ∨ d.val ≠ s.core.registry → s.load.phase ≠ 4 → s.load.phase ≠ 5 →
      ∃ t, exec (.sensorSample d a b ps) s = .next t ∧ (t.dist d.val).st = .tripped ∧ (t.dist d.val).cause = 14) ∧
    (let n := if 1050 ≤ x.tMax then Nat.max 16 (x.sTherm - 32) else if x.tMax < 1020 then Nat.min 256 (x.sTherm + 8) else x.sTherm
      ∃ t, exec (.thermalStep d) s = .next t ∧ t.dist d.val = { x with sTherm := n } ∧ t.parcels = s.parcels) ∧
    (let st := Sparse.get {} x.sites k.val;
      dis = false ∨ (st.aFail = false ∧ st.bFail = false) → ∃ t, exec (.tempDisagree (.site d k) dis) s = .next t ∧
        Sparse.get {} (t.dist d.val).sites k.val = { st with disagree := dis } ∧
        (dis = true → st.disagree = false → t.cool.disagree = Nat.min (s.cool.disagree + 1) 65535)) ∧
    (∃ t, exec (.tempDisagree .inPort dis) s = .next t ∧
      t.cool = { s.cool with inlet := { s.cool.inlet with disagree := dis && !s.cool.inlet.aFail && !s.cool.inlet.bFail } }) ∧
    (∃ t, exec (.tempDisagree .outPort dis) s = .next t ∧
      t.cool = { s.cool with outlet := { s.cool.outlet with disagree := dis && !s.cool.outlet.aFail && !s.cool.outlet.bFail } })) ∧
  (∀ (s : State) (f : FlowReadings) (t : CoolReadings),
    s.core.st ≠ .off →
    (∀ x closed, s.core.air = false → f.meter = some x → x.natAbs ≤ 600 → f.switch = some closed →
      ∃ u, exec (.flowUpdate f t) s = .next u ∧ u.cool.flow = x ∧ u.cool.flowFail = false ∧ u.cool.switchFail = false ∧
        u.cool.switchOpen = !closed ∧ u.cool.inlet = s.cool.inlet.sample t.inA t.inB ∧ u.cool.outlet = s.cool.outlet.sample t.outA t.outB ∧
        (836 * x.natAbs < 10 * s.pwr.p1ms → u.cool.sFlow = Nat.min 256 (s.cool.sFlow * (836 * x.natAbs) / (10 * s.pwr.p1ms)) ∧
          u.cool.belowMin = true) ∧
        (10 * s.pwr.p1ms ≤ 836 * x.natAbs → u.cool.sFlow =
          if 1000 * s.pwr.p1ms < 97 * (836 * x.natAbs) then Nat.min 256 (s.cool.sFlow + 4) else s.cool.sFlow) ∧
        (s.cool.lost = true → u.cool.valve = 100)) ∧
    (s.core.air = false → s.cool.low80 = false →
      (∀ q, s.cool.q = some q → 10 * q < 8 * s.cool.setpoint → ∃ u, exec .flowNotice s = .next u ∧ u.cool = { s.cool with low80 := true })) ∧
    (s.core.air = false → s.cool.switchFail = false → s.cool.switchOpen = false → ∃ u, exec .flowFail s = .next u ∧
      u.cool = { s.cool with flowFail := true }) ∧
    (s.core.air = false → s.cool.flowFail = false → ∃ u, exec .switchFail s = .next u ∧ u.cool.switchFail = true ∧ u.core = s.core) ∧
    (s.core.air = false → s.cool.lost = false → ¬ (s.core.st = .boot ∧ s.boot.step = 2) → ∃ u, exec .coolantLost s = .next u ∧
      u.cool.lost = true ∧ u.cool.valve = 100 ∧ u.core.st = .fault ∧ (s.core.st ≠ .fault → u.core.cause = 11) ∧
      ((s.cool.switchFail = true ∨ s.cool.switchOpen = true) → ∃ w, exec .flowFail s = .next w ∧ w.cool.lost = true ∧ w.core.st = .fault)) ∧
    (s.cool.lost = true →
      (∀ d, s.hottest = some d → (∀ e, e < 60 → (s.dist e).st ≠ .dark → (s.dist e).st ≠ .tripped → (s.dist e).tMax ≤ (s.dist d).tMax) ∧
        exec .coolantTrip s = .next (s.tripAll d 11 18)) ∧
      (s.hottest = none → exec .coolantTrip s = .next s)) ∧
    (s.cool.q.isSome = true → exec .flowReturn s = .next { s with cool := { s.cool with lost := false } })) ∧
  (∀ (s : State) (b : Bool) (avg wait run edge : Nat), s.core.st ≠ .off →
    (s.core.air = true → ∀ i ∈ [Instr.flowFail, .switchFail, .reversedFlow], exec i s = .next s) ∧
    (s.core.air = false → s.cool.reversed = false → s.cool.flowFail = false → ∃ t, exec .reversedFlow s = .next t ∧
      t.cool = { s.cool with reversed := true } ∧
      t.capEff ≤ 12000) ∧
    (s.cool.flowFail = false → exec .reversedClear s = .next { s with cool := { s.cool with reversed := false } }) ∧
    (s.cool.inPair.dead = false → ∃ t, exec (.inletRange b) s = .next t ∧ t.cool = { s.cool with inletRange := b }) ∧
    (∃ t, exec (.leak b) s = .next t ∧ t.cool = if b then { s.cool with leakFail := true } else { s.cool with leak := true }) ∧
    (s.core.air = false → ∃ t, exec (.valveSat b) s = .next t ∧ t.cool.valveSat = b ∧ (b = true → t.cool.valve = 100)) ∧
    (s.core.epoch ≠ 0 → ∃ t, exec (.forecastCompute avg wait run edge) s = .next t ∧
      t.cool.p100 = Nat.min s.capEff (Nat.max s.pwr.p1ms (s.hintPower edge)) ∧ t.cool.p100 ≤ t.cool.p1s ∧ t.cool.p1s ≤ s.capEff ∧
      t.parcels = s.parcels) ∧
    (s.cool.dest ≠ 0 ∨ s.cool.destPort ≠ 0 → ∃ t, exec .forecastMessage s = .next t ∧ t.cool.seq = (s.cool.seq + 1) % 2 ^ 32 ∧
      t.out = s.out ++ [.forecast s.cool.dest s.cool.destPort t.forecastBytes] ∧ t.forecastBytes.length = 64))

/-! ### Host commands -/

/-- Authentication of every host command (R387, R576, R577, R593, R620): without a registry nothing happens; a bad tag is counted and answered
KEY_BAD; a command whose counter is not above the last one is answered from the log where it stands there, without a second effect, else
it is KEY_BAD; one whose counter reaches the floor has the floor written first, and is KEY_BAD with FLASH_FAIL where the write fails;
with reserved trailer bytes that are not 0 it has no effect but on the counter and its floor. Where the manual leaves it to the model:
logs 24, 84. -/
def Obligations.HostAuthentication : Prop :=
  ∀ (s : State) (i : Instr), (hostEncode i).isSome = true →
    let c := cmdFor i
    let still := fun (t : State) => t.core.st = s.core.st ∧ t.parcels = s.parcels ∧ t.dists = s.dists ∧ t.model = s.model ∧
      t.load = s.load ∧ t.serve = s.serve ∧ t.fab = s.fab ∧ t.pwr = s.pwr ∧ t.cool = s.cool ∧ t.boot = s.boot
    (s.answers = false → exec i s = .next s) ∧
    (s.answers = true → s.needsTrailer c.opcode = true →
      (s.tagOk c = false → ∃ t, exec i s = .next t ∧ t.sec.authFail = Nat.min (s.sec.authFail + 1) (2 ^ 32 - 1) ∧ still t ∧
        t.nv = s.nv ∧ t.sec.lastCtr = s.sec.lastCtr) ∧
      (s.tagOk c = true → c.ctr.toNat ≤ s.sec.lastCtr →
        (∀ x, s.core.cmdLog.find? (fun (y : CmdRec) => y.ctr == c.ctr && y.tag == c.tag) = some x → x.reply ≠ [] →
          ∃ t, exec i s = .next t ∧ t.out = s.out ++ [.mgmt c.src c.v1 c.onMgmt c.xid x.reply] ∧ still t ∧ t.nv = s.nv ∧ t.core = s.core) ∧
        (s.core.cmdLog.find? (fun (y : CmdRec) => y.ctr == c.ctr && y.tag == c.tag) = none →
          ∃ t, exec i s = .next t ∧ t.sec.authFail = Nat.min (s.sec.authFail + 1) (2 ^ 32 - 1) ∧ still t ∧ t.nv = s.nv)) ∧
      (s.tagOk c = true → s.sec.lastCtr < c.ctr.toNat →
        (s.nv.floor ≤ c.ctr.toNat → c.flashOk = false → ∃ t, exec i s = .next t ∧ still t ∧ t.nv = s.nv ∧ t.sec = s.sec ∧
          t.cal = { s.cal with flashFail := true } ∧ t.out = (s.reply (s.replyAddr c) c.opcode { status := 8 }).out) ∧
        (c.ctr.toNat < s.nv.floor ∨ c.flashOk = true → c.rsv ≠ 0 → ∃ t, exec i s = .next t ∧ still t ∧ t.sec.lastCtr = c.ctr.toNat ∧
          t.nv = { s.nv with floor := if s.nv.floor ≤ c.ctr.toNat then 65536 * (c.ctr.toNat / 65536 + 1) else s.nv.floor })))

/-- ENGINE_SET_STATE and ENGINE_RESET (R385, R386, R602, R603): service begins and drains; FAULT ends by a warm reset unless its cause
persists; a warm reset runs boot from step 3, keeping the flash, the metered energy and the system region's stacks. Where the manual
leaves it to the model: logs 33, 80. -/
def Obligations.EngineCommands : Prop :=
  ∀ (s : State) (m : MgmtHdr) (n : BitVec 32), n.toNat ≤ 60000 →
    let i := fun (k : BitVec 8) => Instr.engineSetState m k n
    let ms := if n.toNat = 0 then none else some n.toNat
    let warm := fun (t u : State) => t.core.st = .boot ∧ t.boot.step = 3 ∧ t.boot.warm = true ∧ t.pwr.energy = s.pwr.energy ∧
      t.boot.warmResets = Nat.min (s.boot.warmResets + 1) 65535 ∧ t.serve = {} ∧ t.load = {} ∧ t.nv = { s.nv with floor := t.nv.floor } ∧
      ∀ x, x < 0x48000000 → t.stackRead x 1 = u.stackRead x 1
    (s.canCommand (i 4) →
      (s.core.st = .loaded → s.idleWork = false → ∃ t, exec (i 4) s = .next t ∧ t.core.st = .serving ∧ t.serve = s.serve) ∧
      (s.core.st = .loaded → s.idleWork = true → ∃ t, exec (i 4) s = .next t ∧ t.core.st = .loaded) ∧
      (s.core.st = .draining → ∃ t, exec (i 4) s = .next t ∧ t.core.st = .serving ∧ t.core.drainMs = none)) ∧
    (s.canCommand (i 3) →
      (s.core.st = .serving → ∃ t, exec (i 3) s = .next t ∧
        (s.serve.reqs = [] → t.core.st = .loaded) ∧ (s.serve.reqs ≠ [] → t.core.st = .draining ∧ t.core.drainMs = ms)) ∧
      (s.core.st = .draining → ∃ t, exec (i 3) s = .next t ∧ t.core.st = .draining ∧ t.core.drainMs = ms)) ∧
    (s.canCommand (i 2) → s.core.st = .fault →
      (s.causePersists = true → ∃ t, exec (i 2) s = .next t ∧ t.core.st = .fault ∧ t.core.cause = s.core.cause) ∧
      (s.causePersists = false → s.sec.tamper = false → ∃ t, exec (i 2) s = .next t ∧ warm t (s.commanded (i 2)))) ∧
    (s.canCommand (.engineReset m) →
      (s.core.st = .standby → s.sec.tamper = false → ∃ t, exec (.engineReset m) s = .next t ∧
        warm t (s.commanded (.engineReset m))) ∧
      (s.core.st ≠ .standby → ∃ t, exec (.engineReset m) s = .next t ∧ t.core.st = s.core.st ∧
        t.serve.illegal = Nat.min (s.serve.illegal + 1) (2 ^ 32 - 1)))

/-- The commands on districts, clocks, budgets and coolant (R455, R456, R465, R466, R471, R478, R479, R495, R514): a switch-on waits for
headroom, another legal transition begins at once, an illegal one is counted; clock mode and ration are taken where every feeder stays
within 190 A; the cap and the flow setpoint within their limits. Where the manual leaves it to the model: log 47. -/
def Obligations.BudgetCommands : Prop :=
  ∀ (s : State) (m : MgmtHdr) (d : DistId) (mode : BitVec 8) (q r : BitVec 16) (cap : BitVec 32) (dest : BitVec 128),
    let x := s.dist d.val
    let k : BitVec 8 := BitVec.ofNat 8 d.val
    s.nv.fused.getLsbD d.val = false → s.core.st = .standby ∨ s.core.st = .loaded ∨ s.core.st = .serving →
    (s.canCommand (.districtSetState m k 1) → x.busy = false →
      ((x.st = .dark ∧ x.lockBarred = false ∧ budgetOk (s.loadOf (s.toPower d.val) x.mode) = true) ∨
        ((x.st = .idle ∨ x.st = .spare) ∧ budgetOk (s.loadOf (s.poweredPids d.val) x.mode) = true) →
        ∃ t, exec (.districtSetState m k 1) s = .next t ∧ (t.dist d.val).busy = true ∧ (t.dist d.val).target = .active ∧
          (t.dist d.val).switchOn = some { target := .active, since := s.time.ns } ∧ (t.dist d.val).st = x.st ∧ t.parcels = s.parcels) ∧
      (x.st = .active → ∃ t, exec (.districtSetState m k 1) s = .next t ∧ t.dists = s.dists ∧ t.serve = s.serve) ∧
      (x.st = .tripped → ∃ t, exec (.districtSetState m k 1) s = .next t ∧ t.dists = s.dists ∧
        t.serve.illegal = Nat.min (s.serve.illegal + 1) (2 ^ 32 - 1))) ∧
    (s.canCommand (.districtSetState m k 2) → x.busy = false → x.st = .active → s.holdsWork d.val = false ∨ s.core.st = .loaded →
      ∃ t, exec (.districtSetState m k 2) s = .next t ∧ (t.dist d.val).busy = true ∧ (t.dist d.val).target = .idle ∧
        (t.dist d.val).replyTo.isSome = true ∧ (t.dist d.val).switchOn = none ∧ (t.dist d.val).st = .active) ∧
    (s.canCommand (.setClockMode m k mode) → mode.toNat ≤ 3 →
      (budgetOk (s.loadOf (s.poweredPids d.val) mode.toNat) = true → ∃ t, exec (.setClockMode m k mode) s = .next t ∧
        t.dist d.val = { x with mode := mode.toNat } ∧ t.parcels = s.parcels) ∧
      (budgetOk (s.loadOf (s.poweredPids d.val) mode.toNat) = false → ∃ t, exec (.setClockMode m k mode) s = .next t ∧ t.dists = s.dists)) ∧
    (s.canCommand (.setRation m k q r) → q.toNat < 144 ∨ q = 0xFFFF → r.toNat ≤ 320 →
      let v := (rationPids [d.val] q.toNat).foldl (fun (w : State) p => w.writeRation p r.toNat) s
      (budgetOk (v.loadOf (v.poweredPids d.val) x.mode) = true → ∃ t, exec (.setRation m k q r) s = .next t ∧
        ∀ p ∈ rationPids [d.val] q.toNat, (t.parcel p).meter.ration = r.toNat) ∧
      (budgetOk (v.loadOf (v.poweredPids d.val) x.mode) = false → ∃ t, exec (.setRation m k q r) s = .next t ∧ t.parcels = s.parcels)) ∧
    (s.canCommand (.setCap m cap) → ∃ t, exec (.setCap m cap) s = .next t ∧ t.pwr = { s.pwr with
      cap := if 1000 ≤ cap.toNat ∧ cap.toNat ≤ (if s.core.air then 2400 else 20000) then cap.toNat else s.pwr.cap }) ∧
    (s.canCommand (.setValve m q r dest) →
      (100 ≤ q.toNat → q.toNat ≤ 400 → ∃ t, exec (.setValve m q r dest) s = .next t ∧ t.cool.setpoint = q.toNat ∧ t.cool.dest = dest ∧
        t.cool.destPort = r.toNat) ∧
      (q.toNat < 100 ∨ 400 < q.toNat → ∃ t, exec (.setValve m q r dest) s = .next t ∧ t.cool = s.cool))

/-- The commands on models, layers, traverses and prefixes (R328, R338, R340, R355, R356, R362, R421, R525 to R528), each with its reply: a
load begins at once; an unload of the base model leaves STANDBY, unmapped lots and no key but the engine's, and one of an adapter ends a
load of it; a layer's mode is set, or NO_SPARE answered where a lot cannot be mapped; a traverse begins, of a mapped lot with its rewrite,
of a parcel with work on a spare, or NO_SPARE; a prefix is to go at the next commit point, or HANDLE_STALE. Where the manual leaves it to
the model: logs 42, 45, 91. -/
def Obligations.ModelCommands : Prop :=
  ∀ (s : State) (m : MgmtHdr) (o : LoadOps) (slot fl mode : BitVec 8) (layer parcel : BitVec 16) (d lot port : BitVec 8) (h : Word),
    let answers := fun (i : Instr) (status : Nat) (t : State) => exec i s = .next (s.answered t i { status := status })
    let none_ := fun (i : Instr) => answers i 9 (s.commanded i)
    (s.canCommand (.modelLoad m o) → s.loadOpsOk o = true → s.load.phase = 0 →
      (o.kind = 0 → s.core.st = .standby) → (o.kind ≠ 0 → s.core.st = .loaded ∨ s.core.st = .serving) →
      ∃ t, answers (.modelLoad m o) 0 t ∧ t.load = {
          phase := 1
          kind := o.kind.toNat
          slot := o.slot.toNat
          tenant := o.tenant.toNat
          ordinal := o.ordinal.toNat
          next := o.next.toNat
          deedDigest := o.deedDigest
          envelope := o.envelope
          tenants := if o.kind = 0 then o.tenants else []
          lastStatus := s.load.lastStatus } ∧ t.core.st = s.core.st ∧
        t.parcels = s.parcels ∧ t.serve = s.serve) ∧
    (s.canCommand (.modelUnload m 0 0 fl) → s.core.st = .loaded → fl.toNat ≤ 1 → ∃ t, answers (.modelUnload m 0 0 fl) 0 t ∧
      t.core.st = .standby ∧ t.model = { loads := s.model.loads } ∧ t.net.place = [] ∧ t.serve.reqs = [] ∧ (∀ k ∈ t.stk.keys, k.1 = 0) ∧
      (∀ (p : Pid) l, (t.parcel p).mapped l = false) ∧ (fl = 1 → ∀ (p : Pid) l, ((t.parcel p).lot l).cells = []) ∧
      ∀ (p : Pid), (s.parcels.lookup p.key).isSome = true → (t.parcel p).swp.inReset = true) ∧
    (s.canCommand (.modelUnload m 1 slot fl) → s.core.st = .loaded ∨ s.core.st = .serving → fl.toNat ≤ 1 → slot.toNat < 16 →
      (s.model.adapters.lookup slot.toNat).any (fun (a : Adapter) => !a.released) = true ∨
        (s.load.phase ≠ 0 ∧ s.load.kind = 1 ∧ s.load.slot = slot.toNat) →
      ∃ t, answers (.modelUnload m 1 slot fl) 0 t ∧ (∀ k ∈ t.stk.keys, k.1 ≠ 2 + slot.toNat) ∧ t.core.st = s.core.st ∧
        (∀ a, t.model.adapters.lookup slot.toNat = some a → a.released = true) ∧
        (s.load.phase ≠ 0 → s.load.kind = 1 → s.load.slot = slot.toNat → s.load.ended = none → t.load.phase = 6 ∧
          t.load.ended = some 4)) ∧
    (let i := Instr.layerSetResidency m layer mode;
      s.canCommand i → s.core.st = .loaded ∨ s.core.st = .serving →
      s.model.layers.any (fun (l : LayerEnt) => l.index == layer.toNat) = true →
      (mode = 1 → ∃ t, answers i 0 t ∧ t.model.hostMode.lookup layer.toNat = some true ∧ t.model.rewriting = s.model.rewriting) ∧
      (∀ v, mode = 0 → State.mapAll (s.missingLots layer.toNat) s = some v → ∃ t, answers i 0 t ∧
        t.model.hostMode.lookup layer.toNat = some false ∧ t.model.rewriting = v.model.rewriting) ∧
      (mode = 0 → State.mapAll (s.missingLots layer.toNat) s = none → none_ i)) ∧
    (∀ (scope : BitVec 8),
      let i := Instr.traverse m scope d parcel lot port
      let x : Trav := { id := 0, scope := scope.toNat, d := d.toNat, parcel := parcel.toNat, lot := lot.toNat, port := port.toNat }
      let p := pidOf (144 * d.toNat + parcel.toNat)
      let begun := fun (t : State) => answers i 0 t ∧ t.cal.active = s.cal.active ++ [{ x with id := s.cal.next }]
      s.canCommand i → s.travOk scope.toNat d.toNat parcel.toNat lot.toNat port.toNat = true → s.travPowered x = true →
      s.core.st = .standby ∨ s.core.st = .loaded ∨ s.core.st = .serving ∨ s.core.st = .draining →
      s.cal.active.any (fun y => x.meets y) = false →
      (scope = 0 → ∃ t, begun t ∧ ((s.parcel p).mapped lot.toNat = false → t.parcels = s.parcels ∧ t.model = s.model) ∧
        ((s.parcel p).mapped lot.toNat = true →
          t.model = (s.rewrite p ⟨lot.toNat % 18, Nat.mod_lt _ (by decide)⟩).model)) ∧
      (scope = 1 →
        (s.logicalAt p = none → ∃ t, begun t ∧ t.parcels = s.parcels) ∧
        ∀ lp, s.logicalAt p = some lp → s.nextPlace.lookup lp = some p →
          (∀ q, (s.chooseSpares (s.spareOrder p.d.val) 1 []).head? = some q → ∃ t, begun t ∧ t.nextPlace.lookup lp = some q) ∧
          (s.chooseSpares (s.spareOrder p.d.val) 1 [] = [] → none_ i)) ∧
      (scope = 2 → (s.dist d.toNat).st = .spare → (s.dist d.toNat).busy = false →
        ∃ t, begun t ∧ (t.dist d.toNat).hole = true ∧ (t.dist d.toNat).busy = true) ∧
      (scope = 3 → ∃ t, answers i 0 t ∧
        t.cal.active = s.cal.active ++ [{ x with id := s.cal.next, todo := (s.upLinks port.toNat).drop 1 }] ∧
        ∀ l, (s.upLinks port.toNat).head? = some l → (t.port port.toNat).linkUp.getLsbD (l % 8) = false) ∧
      (scope = 4 → ∃ t, begun t ∧ t.dists = s.dists)) ∧
    (s.canCommand (.prefixRelease m h) → s.core.st = .loaded ∨ s.core.st = .serving ∨ s.core.st = .draining →
      (∀ x, s.serve.prefixes.find? (fun (y : Prefix) => y.handle == h && !y.dropping) = some x →
        ∃ t, answers (.prefixRelease m h) 0 t ∧ t.serve = { s.serve with
          prefixes := s.serve.prefixes.map (fun (y : Prefix) => if y.slot = x.slot then { y with dropping := true } else y) }) ∧
      (s.serve.prefixes.find? (fun (y : Prefix) => y.handle == h && !y.dropping) = none →
        answers (.prefixRelease m h) 15 (s.commanded (.prefixRelease m h))))

/-- The commands on fabric, rings, identity, trust and firmware, and REG_READ (R426, R443, R574, R575, R578, R579, R585, R588, R606,
R618). Where the manual leaves it to the model: logs 11, 49, 54. -/
def Obligations.TrustCommands : Prop :=
  ∀ (s : State) (m : MgmtHdr) (f : FabricOps) (b : BindOps) (key sig : BitVec 512) (cipher data : List Byte) (ch : BitVec 256)
    (fl act mode : BitVec 8) (off : BitVec 32) (addr : Word),
    (s.canCommand (.fabricSetConfig m f) → fabricOk f = true → s.core.st = .standby ∨ s.core.st = .fault →
      ∃ t, exec (.fabricSetConfig m f) s = .next t ∧ t.nv.fabric = some (fabricCfgOf f) ∧ t.nv.fabricOk = true ∧ t.fab.ok = true ∧
        t.fab.engineId = f.engineId.toNat ∧ t.fab.encap = f.encap.toNat ∧ t.fab.prio = f.prio.toNat) ∧
    (s.canCommand (.ringBind m b) → b.ring.toNat < 128 → b.mtu.toNat ≤ 2 → b.clientQpn.toNat < 2 ^ 24 → b.clientPsn.toNat < 2 ^ 24 →
      b.enginePsn.toNat < 2 ^ 24 → s.core.st = .loaded ∨ s.core.st = .serving ∨ s.core.st = .draining →
      ∃ t, exec (.ringBind m b) s = .next t ∧ let c := t.conn b.ring.toNat
        c.bound = true ∧ c.failed = false ∧ c.clientIp = b.clientIp ∧ c.clientQpn = b.clientQpn.toNat ∧ c.mtu = b.mtu.toNat ∧
        c.psnOut = b.enginePsn.toNat ∧ c.psnIn = b.clientPsn.toNat ∧ c.unacked = [] ∧
        ((s.conn b.ring.toNat).bound = true → (s.conn b.ring.toNat).failed = false →
          ∀ q ∈ t.serve.reqs, q.ring = b.ring.toNat → q.end_.isSome = true)) ∧
    (s.canCommand (.ownerSet m key) → ∃ t, exec (.ownerSet m key) s = .next t ∧
      (s.nv.owner.isSome = true ∨ (m.onMgmt = true ∧ s.core.st = .standby) → t.nv.owner = some key ∧ t.nv.mkey = none ∧ t.out = (s.answered s (.ownerSet m key) { status := 0 }).out) ∧
      (s.nv.owner = none → m.onMgmt = false ∨ s.core.st ≠ .standby → t.nv.owner = none ∧ t.nv.mkey = s.nv.mkey)) ∧
    (s.canCommand (.mgmtKey m cipher sig) → cipher.length = 161 → ∃ t, exec (.mgmtKey m cipher sig) s = .next t ∧
      match s.openMgmtKey cipher sig with
      | some k => if m.flashOk then t.nv.mkey = some k.1 ∧ t.sec.lastCtr = k.2 - 1 ∧ t.sec.evCtr = 0 ∧
            t.nv.floor = 65536 * ((k.2 - 1) / 65536 + 1)
          else t.nv = s.nv ∧ t.sec = s.sec ∧ t.cal.flashFail = true
      | none => t.nv = s.nv ∧ t.sec = s.sec) ∧
    (s.canCommand (.trustSet m act key) → s.core.st = .standby ∨ s.core.st = .fault → ∃ t, exec (.trustSet m act key) s = .next t ∧
      let l := (s.nv.trust.current).getD []
      (act = 0 → key ∉ l → l.length < 32 → t.nv.trust.current = some (l ++ [key]) ∧ t.nv.gens = s.nv.gens) ∧
      (act = 0 → key ∉ l → 32 ≤ l.length → t.nv.trust = s.nv.trust) ∧
      (act = 1 → key.toNat < 2 ^ 256 → (∃ k ∈ l, pubId k = leBytes key.toNat 32) →
        t.nv.trust.current = some (l.filter (fun k => pubId k != leBytes key.toNat 32))) ∧
      (act = 2 → key = 0 → t.nv.gens.current = some [] ∧ t.nv.trust = s.nv.trust)) ∧
    (s.canCommand (.quote m ch fl) → fl.toNat ≤ 1 → s.sec.tamper = false →
      let u := s.commanded (.quote m ch fl)
      exec (.quote m ch fl) s = .next (s.answered { u with free := u.free + 1 } (.quote m ch fl) {
        status := 0
        results := u.quoteBody ch ++ sm2Sign (Config.identityKey s.nv.serial).toNat (Config.signRandom u.free).toNat (u.quoteBody ch) ++
          (if fl = 1 then Config.identityCerts s.nv.serial else []) })) ∧
    (s.canCommand (.firmwareUpdate m off 0 data) → s.core.st = .standby ∨ s.core.st = .fault → data.length ≤ 4096 →
      ∃ t, exec (.firmwareUpdate m off 0 data) s = .next t ∧ t.nv.slotBytes (!s.sec.slotB) off.toNat data.length = data ∧
        (∀ x, x < off.toNat ∨ off.toNat + data.length ≤ x → t.nv.slotBytes (!s.sec.slotB) x 1 = s.nv.slotBytes (!s.sec.slotB) x 1) ∧
        (∀ x, t.nv.slotBytes s.sec.slotB x 1 = s.nv.slotBytes s.sec.slotB x 1) ∧ t.nv.pendingSlot = s.nv.pendingSlot) ∧
    (s.canCommand (.firmwareUpdate m off 1 data) → s.core.st = .standby ∨ s.core.st = .fault → data.length ≤ 4096 →
      ∃ t, exec (.firmwareUpdate m off 1 data) s = .next t ∧
        t.nv.pendingSlot = (if t.nv.verify (!s.sec.slotB) = 0 then some (!s.sec.slotB) else none)) ∧
    (∀ v pl, s.canCommand (.regRead m addr 1 mode) → mode.toNat ≤ 1 → addr.toNat % 8 = 0 → runOk addr.toNat 1 = true →
      regPlace addr.toNat = some pl →
      let u := s.commanded (.regRead m addr 1 mode)
      u.regValue addr.toNat = some v → ∃ t, exec (.regRead m addr 1 mode) s =
          .next (s.answered t (.regRead m addr 1 mode) { status := 0, results := leBytes (u.shown addr.toNat v) 8 }) ∧
        (∀ g ∈ rcFields pl, ∃ w, t.regValue addr.toNat = some w ∧ g.of w = 0) ∧
        (mode = 1 → ∀ g ∈ (rcFields pl).zipIdx, t.shadow addr.toNat g.2 = 0))

/-! ### Districts, spares, loads, traverses, the test access port -/

/-- The rows of a switch-on and of a commanded transition (R470, R478, R479): P_on is reserved when the headroom test passes and the
regulators are to ramp, a feeder that does not come up trips the district, five milliseconds without a pass end the command; then domain
and parcels are up, or power is gone, RETAIN keeping the SRAM. Where the manual leaves it to the model: logs 76, 77, 96. -/
def Obligations.SwitchRows : Prop :=
  ∀ (s : State) (d : DistId) (ok : Bool) (w : SwitchOn),
    let x := s.dist d.val
    (x.switchOn = some w →
      (w.probed = false → s.headroomOk (s.switchLoad d.val) = true →
        (x.st ≠ .dark ∨ ok = true → ∃ t, exec (.switchOnTest d ok) s = .next t ∧
          t.dist d.val = { x with switchOn := some { w with probed := true } } ∧
          t.pwr.reserves = s.pwr.reserves ++ [Reserve.mk d.val (s.switchLoad d.val)] ∧
          (x.st.domainOff = true → ∀ p ∈ s.toPower d.val, (t.parcel p).reg.ramp = true)) ∧
        (x.st = .dark → ok = false → ∃ t, exec (.switchOnTest d ok) s = .next t ∧ (t.dist d.val).st = .tripped ∧
          (t.dist d.val).cause = 13 ∧ (t.dist d.val).busy = false ∧ (t.dist d.val).switchOn = none)) ∧
      (w.probed = false → x.replyTo.isSome = true → w.since + 5000000 ≤ s.time.ns → ∃ t, exec (.switchOnTimeout d) s = .next t ∧
        t.dist d.val = { x with busy := false, switchOn := none, replyTo := none } ∧
        t.pwr.busyPower = Nat.min (s.pwr.busyPower + 1) 65535) ∧
      (w.probed = true → ∃ t, exec (.switchOnComplete d) s = .next t ∧ (t.dist d.val).st = w.target ∧ (t.dist d.val).busy = false ∧
        (t.dist d.val).switchOn = none ∧
        (x.st.domainOff = true → (t.dist d.val).live = true ∧ (t.dist d.val).sTherm = 256 ∧ ∀ p ∈ s.toPower d.val, (t.parcel p).reg.on = true))) ∧
    (x.switchOn = none →
      exec (.reserveRelease d) s = .next { s with pwr := { s.pwr with reserves := s.pwr.reserves.filter (fun r => r.d ≠ d.val) } } ∧
      (x.busy = true → x.replyTo.isSome = true → s.model.loaded = false ∨ s.keepsWork x.target = true ∨
          (s.holdsWork d.val = false ∧ s.stranded d.val = []) →
        ∃ t, exec (.districtTransitionEnd d) s = .next t ∧ (t.dist d.val).st = x.target ∧ (t.dist d.val).busy = false ∧
          (t.dist d.val).replyTo = none ∧
          (x.target.takesPower = true → (t.dist d.val).live = false ∧ ∀ (p : Pid), p.d = d → (t.parcel p).reg.on = false ∧
            (t.parcel p).swp.g = [] ∧ (t.parcel p).sram = if x.target = .retain then (s.parcel p).sram else []) ∧
          (x.target.takesPower = false → t.parcels = s.parcels)))

/-- COVER_BRING_IN, PARCEL_REPLACED and DISTRICT_RESTORED (R472, R554 to R560): the work of a hole moves to covers at the next pass
boundary, a fenced parcel's to the nearest spare; without one it is unhosted and the requests complete; when a district is restored its
covers are no longer needed. STACK_LOST, STACK_REBUILD_DONE and SCRUB (R368, R370 to R373, R564): the third lost stack is a FAULT, one or
two replay the step; a stack lost for its route alone comes back; one bad granule is corrected, a record that cannot be rebuilt is lost.
Where the manual leaves it to the model: logs 38, 43, 53, 88. -/
def Obligations.SpareRows : Prop :=
  (∀ (s : State) (d e : DistId) (p : Pid), s.model.loaded = true →
    (let work := s.stranded d.val
      let covers := s.chooseSpares (s.spareOrder d.val) work.length [];
      s.live d.val = false → work ≠ [] → (work.map Prod.fst).Nodup → s.bringInOk covers (work.map Prod.snd) = true →
      ∃ t, exec (.coverBringIn d) s = .next t ∧ t.recov.evacuations = Nat.min (s.recov.evacuations + 1) 65535 ∧
        (∀ x ∈ work.zip covers, t.nextPlace.lookup x.1.1 = some x.2 ∧ (t.parcel x.2).health.cover = true ∧ (t.parcel x.2).reg.on = true) ∧
        ∀ x ∈ work.drop covers.length, x.1 ∈ t.recov.unhosted) ∧
    (∀ lp, s.logicalAt p = some lp → (s.parcel p).health.bollard = true → s.nextPlace.lookup lp = some p →
      (∀ q, (s.chooseSpares (s.spareOrder p.d.val) 1 []).head? = some q → s.bringInOk [q] [p] = true →
        ∃ t, exec (.parcelReplaced p) s = .next t ∧ t.nextPlace.lookup lp = some q ∧ t.recov.swaps = Nat.min (s.recov.swaps + 1) 65535 ∧
          (t.parcel q).reg.on = true ∧ (t.parcel q).meter.ration = (s.parcel p).meter.ration) ∧
      (s.chooseSpares (s.spareOrder p.d.val) 1 [] = [] → ∃ t, exec (.parcelReplaced p) s = .next t ∧ lp ∈ t.recov.unhosted ∧
        (lp ∉ s.recov.unhosted → t.serve.reqs = []))) ∧
    (let rs := s.recov.restoring.filter (fun (r : Restore) => r.from_ == d.val);
      rs ≠ [] → rs.all (fun (r : Restore) => r.p.d == e && s.running r.p && (s.model.rewriting.filter (fun (j : LotJob) =>
          j.p == r.p)).all (fun (j : LotJob) => j.traversed)) = true → s.core.st = .serving →
      ∃ t, exec (.districtRestored d e) s = .next t ∧ (∀ x ∈ t.recov.covered, x.2 ≠ d.val) ∧
        (∀ r ∈ t.recov.restoring, r.from_ ≠ d.val) ∧
        ((rs.map (fun (r : Restore) => r.lp)).Nodup → ∀ r ∈ rs, t.nextPlace.lookup r.lp = some r.p))) ∧
  (∀ (s : State) (k : StackId) (route : Bool) (addr : Nat) (bad : List StackId), s.core.st ≠ .off →
    (route = true → s.stackRouted k = true → exec (.stackLost k route) s = .next s) ∧
    (k.val ∉ s.stk.lost → (route = true → s.stackRouted k = false) → ∃ t, exec (.stackLost k route) s = .next t ∧ t.stk.lost = s.stk.lost ++ [k.val] ∧
      (2 ≤ s.stk.lost.length → t.core.st = .fault ∧ (s.core.st ≠ .fault → t.core.cause = 9)) ∧
      (s.stk.lost.length < 2 → t.core.st = s.core.st ∧ ∀ st ∈ t.serve.steps, st.committed = false → st.spoiled = true)) ∧
    (k.val ∈ s.stk.routeLost → s.stackRouted k = true → exec (.stackRebuildDone k) s = .next { s with stk := { s.stk with
      lost := s.stk.lost.filter (fun x => x ≠ k.val), routeLost := s.stk.routeLost.filter (fun x => x ≠ k.val) } }) ∧
    (addr + 72 ≤ stackSize →
      (bad = [] → recordOk (s.stackRead addr 72) = true → exec (.scrub addr bad) s = .next s) ∧
      (let st := scrubStripe addr k.val
        let y := { s with stk := { s.stk with
          bad := s.stk.bad.filter (fun b => !(stripeOf b.1 == st && stackOf b.1 == k.val))
          located := Nat.min (s.stk.located + 1) 65535 } };
        bad = [k] → s.stk.lost = [] → recordOk (y.stackRead addr 72) = true → exec (.scrub addr bad) s = .next y) ∧
      (1 < (bad.map Fin.val).eraseDups.length ∨ (bad = [k] ∧ s.stk.lost ≠ []) ∨ (bad = [] ∧ recordOk (s.stackRead addr 72) = false) →
        s.segmentAt addr = none → s.slotsAt addr = [] → 0x69C00000 ≤ addr →
        addr < 0x80000000 → ∃ t, exec (.scrub addr bad) s = .next t ∧ addr ∈ t.stk.lostRecs ∧ t.serve = s.serve)))

/-- LOAD and LOAD_TIMEOUT (R339 to R343, R348): the records of a segment that the engine keeps go to its place in order; a record out of
order, and the timeout, fail the load with MALFORMED. LOT_PROGRAM_START, LOT_PROGRAM_DONE, LOAD_DONE and ADAPTER_PLACE (R346 to R350,
R357, R360, R361): a lot programs when its turn comes, refused content failing the load; a lot that is programmed is traversed next; a
load with every lot done enters service as LOADED. Where the manual leaves it to the model: logs 34, 37, 39. -/
def Obligations.LoadRows : Prop :=
  (∀ (s : State) (m : AveIn),
    (s.load.phase = 1 ∨ s.load.phase = 2 → s.load.ended = none →
      ∃ t, exec .loadTimeout s = .next t ∧ t.load.phase = 6 ∧ t.load.ended = some 17 ∧ t.load.deed = none ∧ t.load.jobs = []) ∧
    (∀ d e, (s.aveTake 3 m).2 = true → s.load.deed = some d → s.load.phase = 2 → s.load.ended = none → m.hdr.aux ≠ 0xFFFFFFFF →
      d.segs[m.hdr.aux.toNat]? = some e → s.load.ordinal = e.target → e.keptBy s.load.ordinal = true →
      let got := Sparse.get 0 s.load.got m.hdr.aux.toNat
      let n := m.hdr.nrec.toNat
      (m.hdr.fseq.toNat = got → got + n < e.records → ∃ t, exec (.load m) s = .next t ∧
        Sparse.get 0 t.load.got m.hdr.aux.toNat = got + n ∧ t.stackRead (e.addr + 72 * got) (72 * n) = m.body.take (72 * n) ∧
        t.load.phase = 2) ∧
      (m.hdr.fseq.toNat ≠ got → ∃ t, exec (.load m) s = .next t ∧ t.load.ended = some 17 ∧ t.load.phase = 6)) ∧
    ((s.aveTake 3 m).2 = true → s.load.deed = none → s.load.phase = 1 → s.load.ended = none → m.hdr.aux = 0xFFFFFFFF →
      (m.hdr.fseq.toNat ≠ s.load.deedRecs → ∃ t, exec (.load m) s = .next t ∧ t.load.ended = some 17) ∧
      (m.hdr.fseq.toNat = s.load.deedRecs → s.load.next = 0x3FFF → (s.load.deedBytes ++ payloadOf m).length < 64 →
        ∃ t, exec (.load m) s = .next t ∧ t.load.deedBytes = s.load.deedBytes ++ payloadOf m ∧ t.load.phase = 1))) ∧
  (∀ (s : State) (p : Pid) (l : LotId) (j : LotJob) (fs : List SiteFail) (slot : Fin 16),
    let ps := s.parcel p
    (s.jobOf p l = some j → s.running p = true → (ps.lot l.val).prog = .idle → ps.health.bollard = false → ps.mapped l.val = false →
      (j.rewrite = true → ps.meter.halt = false → exec (.lotProgramStart p l) s =
        .next (s.setParcel p (ps.setLot l.val { ps.lot l.val with prog := .programming true }))) ∧
      (j.rewrite = false → s.load.phase = 4 → s.load.ended = none → s.mayProgram j = true →
        if s.segContentOk (s.segAddr j.seg) j.seg = true then exec (.lotProgramStart p l) s =
          .next (s.setParcel p (ps.setLot l.val { ps.lot l.val with prog := .programming false }))
        else ∃ t, exec (.lotProgramStart p l) s = .next t ∧ t.load.ended = some 17)) ∧
    (∀ b, s.jobOf p l = some j → s.running p = true → (ps.lot l.val).prog = .programming b →
      let a := s.segAddr j.seg
      let range := ((s.segOutliers a j.seg).takeWhile (fun w => w ≠ 0)).map outlierOf
      let r := ps.programmed l.val (s.lotPlan a j.seg) range ((List.range 1024).map (s.segScale a j.seg)) fs j a
      r.2 ≤ 4096 → ∃ t, exec (.lotProgramDone p l fs) s = .next t ∧ t.parcel p = r.1 ∧ ((t.parcel p).lot l.val).prog = .programmed ∧
        ((t.parcel p).lot l.val).stale = (ps.lot l.val).stale ∧ t.cal.next = s.cal.next + 1 ∧
        (∃ x ∈ t.cal.active, x.id = s.cal.next ∧ x.scope = 0 ∧ x.d = p.d.val ∧ x.parcel = p.p.val ∧ x.lot = l.val ∧ x.own = true) ∧
        t.load.lotsDone = s.load.lotsDone + (if j.rewrite then 0 else 1)) ∧
    (∀ st, s.load.ended = some st → ∃ t, exec .loadDone s = .next t ∧ t.load.phase = 0 ∧ t.load.lastStatus = st ∧ t.load.ended = none ∧
      t.core = s.core) ∧
    (∀ d img, s.load.ended = none → s.load.deed = some d → s.load.kind = 0 → s.load.phase = 5 →
      s.load.jobs.all (fun (x : LotJob) => x.programmed && x.traversed) = true → s.net.place.all (fun x => s.running x.2) = true →
      d.segs.find? (fun e => e.kind == 1 && e.target == s.load.ordinal) = some img →
      ∃ t, exec .loadDone s = .next t ∧ t.core.st = .loaded ∧ t.model.loaded = true ∧ t.model.digest = s.load.deedDigest ∧
        t.model.loads = s.model.loads + 1 ∧ t.load.phase = 0 ∧ t.load.lastStatus = 0 ∧ t.serve.reqs = []) ∧
    (∀ a, s.model.adapters.lookup slot.val = some a → a.placed = false → a.released = false → ∃ t, exec (.adapterPlace slot) s = .next t ∧
      t.model.adapters.lookup slot.val = some { a with placed := true } ∧ t.net = s.net))

/-- REWRITE, BACKGROUND_BEAT, RESID_CHECK and TRAVERSE_DONE (R357 to R359, R527, R530 to R534, R541): a mapped lot goes to a spare one,
without one its layer is streamed; a beat holds its draw; a lot past its residual is reported once; a traverse's result decides whether
its lot is stale, and the traverse is over. Where the manual leaves it to the model: logs 43, 44, 89. -/
def Obligations.LotService : Prop :=
  ∀ (s : State) (p : Pid) (l : LotId) (d : DistId),
    let ps := s.parcel p
    (∀ lp i e, s.logicalAt p = some lp → ps.health.lotsRetired.getLsbD l.val = false → ps.logicalOf l.val = some i →
      (s.model.lots.filter (fun (x : LotEnt) => x.lp == lp)).find? (fun (x : LotEnt) => x.lot == i) = some e →
      s.model.rewriting.any (fun (j : LotJob) => j.p == p && (j.l == l || (j.map && j.logical == i))) = false →
      (∀ n, s.spareLot p = some n → ∃ t, exec (.rewrite p l) s = .next t ∧ t.model.rewriting = s.model.rewriting ++ [jobFor e p n true]) ∧
      (s.spareLot p = none → e.layer ∉ s.model.forced → ∃ t, exec (.rewrite p l) s = .next t ∧ t.model.forced = s.model.forced ++ [e.layer])) ∧
    (s.running p = true → (ps.lot l.val).prog = .programming true → ps.meter.stalledInWindow = false → ps.meter.halt = false →
      ps.meter.guard = false → ps.heldMa + 560 ≤ 10 * ps.meter.eff → exec (.backgroundBeat p l) s =
        .next (s.setParcel p { ps with meter := { ps.meter with beats := ps.meter.beats ++ [8] } })) ∧
    ((s.dist d.val).st = .active → ∃ t, exec (.residCheck d) s = .next t ∧ ∀ (q : Pid) (n : LotId), q.d = d →
      (s.parcel q).mapped n.val = true → 64 ≤ ((s.parcel q).lot n.val).audits → 1311 ≤ ((s.parcel q).lot n.val).resid →
      ((t.parcel q).lot n.val).reported = true) ∧
    (∀ (t : Trav) (m : LotMeasure) (r : TravResult), s.cal.active.find? (fun (x : Trav) => x.id == t.id) = some t →
      (t.scope ≠ 0 → s.travWaits t r = false → ∃ u, exec (.traverseDone t.id r) s = .next u ∧ (∀ x ∈ u.cal.active, x.id ≠ t.id) ∧
        u.cal.traverses = Nat.min (s.cal.traverses + 1) 65535) ∧
      (t.scope = 0 → t.d = p.d.val → t.parcel = p.p.val → t.lot = l.val → ps.mapped l.val = false →
        let ok := (ps.lotMeasured l.val r.benchOk m (s.imageWeight p l.val)).2
        ∃ u, exec (.traverseDone t.id { r with lots := [(p, l, m)] }) s = .next u ∧ (∀ x ∈ u.cal.active, x.id ≠ t.id) ∧
          ((u.parcel p).lot l.val).stale = !ok ∧ ((u.parcel p).lot l.val).failedLast = !ok))

/-- The TAP rows (R586, R587, R603; log 7 for the instructions of IEEE 1149.1): bypass and identification code leave on TDO; EXTEST and
INTEST take effect in STANDBY and FAULT only and are counted elsewhere; a good unlock zeroes the keys, marks the engine and ends in FAULT
with KEY_BAD, a bad one is counted, and either uses its challenge up. Where the manual leaves it to the model: logs 7, 11, 86. -/
def Obligations.TapRows : Prop :=
  ∀ (s : State) (b : Bool) (bits : List Bool) (cert sig : List Byte), s.core.st ≠ .off →
    (∃ t, exec (.bypass b) s = .next t ∧ t.out = s.out ++ [.tdo [s.tap.bypass]] ∧ t.tap = { s.tap with ir := .bypass, bypass := b }) ∧
    (∃ t, exec .idcode s = .next t ∧ t.tap.ir = .idcode ∧
      t.out = s.out ++ [.tdo ((List.range 32).map (fun i => Config.idcode.getLsbD i))]) ∧
    (∃ t o, exec (.samplePreload bits) s = .next t ∧ t.tap = { s.tap with ir := .sample, boundary := bits } ∧ t.out = s.out ++ [.tdo o] ∧
      o.length = bits.length) ∧
    (s.core.st = .standby ∨ s.core.st = .fault →
      exec .extest s = .next { s with tap := { s.tap with ir := .extest } } ∧
      exec .intest s = .next { s with tap := { s.tap with ir := .intest } }) ∧
    (s.core.st ≠ .standby → s.core.st ≠ .fault → ∀ i ∈ [Instr.extest, .intest], ∃ t, exec i s = .next t ∧
      t.tap = { s.tap with ir := .bypass } ∧ t.sec.jtagDeny = Nat.min (s.sec.jtagDeny + 1) (2 ^ 32 - 1)) ∧
    (∃ t c, exec .tapChallenge s = .next t ∧ t.sec.challenge = some c ∧ c.length = 40 ∧ c.drop 32 = leBytes s.nv.serial.toNat 8 ∧
      t.free = s.free + 1) ∧
    (∃ t, exec (.tapUnlock cert sig) s = .next t ∧ t.sec.challenge = none ∧
      if s.unlockOk cert sig then
        t.stk.keys = [] ∧ t.nv.mkey = none ∧ t.nv.debugEver = true ∧ t.sec.debug = true ∧ t.core.st = .fault ∧ t.core.cause = 8
      else
        t.sec.debug = s.sec.debug ∧ t.sec.jtagDeny = Nat.min (s.sec.jtagDeny + 1) (2 ^ 32 - 1) ∧ t.stk = s.stk ∧ t.nv = s.nv) ∧
    exec .tapReset s = .next { s with tap := {} }
end

