-- ==== Sys2Proof/Laws/Issue.lean ====
section
/-!
SUPPORT. What the issue of a sweeper instruction can do (06 R173, R179, R194, R199): one lemma for each way it ends.
-/
namespace Sys2Proof.Machine

/-- A parcel that reaches its instruction passes the checks before the execution. -/
theorem atInstr_iff (s : State) (p : Pid) :
    s.atInstr p = true ↔ s.running p = true ∧ (s.parcel p).ready = true ∧ (s.parcel p).fetchBad = false := by
  simp [State.atInstr, and_assoc]

/-- The instruction issues and completes. -/
theorem issueAt_done {s : State} {p : Pid} {c : Nat} {ill : Bool} {k : ParcelState → Issue} {ps : ParcelState} {pc : Nat}
    (h : s.canIssue p c = true) (hi : ill = false) (hk : k (s.parcel p) = .done ps pc) :
    s.issueAt p c ill k = .next (s.afterIssue p c ps pc) := by
  simp only [State.canIssue, Bool.and_eq_true, atInstr_iff] at h
  obtain ⟨⟨h1, h2, h3⟩, h4⟩ := h
  simp [State.issueAt, State.modParcel, ParcelState.issue, State.afterIssue, h1, h2, h3, h4, hi, hk]

/-- The execution answers a precise exception. -/
theorem issueAt_exc {s : State} {p : Pid} {c n : Nat} {ill : Bool} {k : ParcelState → Issue}
    (h : s.atInstr p = true) (hi : ill = false) (hk : k (s.parcel p) = .exc n) :
    s.issueAt p c ill k = .next (s.afterExc p n) := by
  obtain ⟨h1, h2, h3⟩ := (atInstr_iff s p).1 h
  simp [State.issueAt, State.modParcel, ParcelState.issue, State.afterExc, h1, h2, h3, hi, hk]

/-- A reserved word raises ILLEGAL. -/
theorem issueAt_illegal {s : State} {p : Pid} {c : Nat} {ill : Bool} {k : ParcelState → Issue}
    (h : s.atInstr p = true) (hi : ill = true) : s.issueAt p c ill k = .next (s.afterExc p 1) := by
  obtain ⟨h1, h2, h3⟩ := (atInstr_iff s p).1 h
  simp [State.issueAt, State.modParcel, ParcelState.issue, State.afterExc, h1, h2, h3, hi]

/-- Whatever happens, the step goes on with one parcel changed. -/
theorem issueAt_frame (s : State) (p : Pid) (c : Nat) (ill : Bool) (k : ParcelState → Issue) :
    s.issueAt p c ill k = .next s ∨ ∃ ps, s.issueAt p c ill k = .next (s.setParcel p ps) := by
  unfold State.issueAt
  split
  · exact .inr ⟨_, rfl⟩
  · exact .inl rfl

end Sys2Proof.Machine
end

