-- ==== Sys2Proof/Laws/Sparse.lean ====
section
/-!
SUPPORT. The laws of tables and byte memories: a read after a write, other places left alone, the canonical form kept.
-/
namespace Sys2Proof.Machine

/-! ### Tables -/

@[simp] theorem Sparse.get_put_self {α : Type} (d : α) (m : Sparse α) (k : Nat) (v : α) :
    Sparse.get d (Sparse.put m k v) k = v := by
  induction m with
  | nil => simp [Sparse.put, Sparse.get]
  | cons x m ih =>
    obtain ⟨k', v'⟩ := x
    simp only [Sparse.put]
    split
    · simp [Sparse.get]
    · split
      · simp [Sparse.get]
      · simp [Sparse.get, *]

theorem Sparse.get_put_ne {α : Type} (d : α) (m : Sparse α) {k j : Nat} (v : α) (h : j ≠ k) :
    Sparse.get d (Sparse.put m k v) j = Sparse.get d m j := by
  induction m with
  | nil => simp [Sparse.put, Sparse.get, h.symm]
  | cons x m ih =>
    obtain ⟨k', v'⟩ := x
    simp only [Sparse.put]
    split
    · next e => subst e; simp [Sparse.get, h.symm]
    · split
      · simp [Sparse.get, h.symm]
      · simp [Sparse.get, ih]

@[simp] theorem Sparse.get_nil {α : Type} (d : α) (k : Nat) : Sparse.get d ([] : Sparse α) k = d := rfl

/-- An entry of the table after a put is the new one or an old one. -/
theorem Sparse.mem_put {α : Type} {m : Sparse α} {k : Nat} {v : α} {x : Nat × α} (h : x ∈ Sparse.put m k v) :
    x = (k, v) ∨ x ∈ m := by
  induction m with
  | nil => simpa [Sparse.put] using h
  | cons y m ih =>
    obtain ⟨k', v'⟩ := y
    simp only [Sparse.put] at h
    split at h
    · rcases List.mem_cons.1 h with h | h
      · exact .inl h
      · exact .inr (List.mem_cons_of_mem _ h)
    · split at h
      · rcases List.mem_cons.1 h with h | h
        · exact .inl h
        · exact .inr h
      · rcases List.mem_cons.1 h with h | h
        · exact .inr (h ▸ List.mem_cons_self ..)
        · rcases ih h with h | h
          · exact .inl h
          · exact .inr (List.mem_cons_of_mem _ h)

/-- What a table holds at `k` is its default or one of its entries. -/
theorem Sparse.get_mem {α : Type} (d : α) (m : Sparse α) (k : Nat) : Sparse.get d m k = d ∨ (k, Sparse.get d m k) ∈ m := by
  induction m with
  | nil => exact .inl rfl
  | cons x m ih =>
    obtain ⟨k', v'⟩ := x
    simp only [Sparse.get]
    split
    · next e => subst e; exact .inr (List.mem_cons_self ..)
    · rcases ih with h | h
      · exact .inl h
      · exact .inr (List.mem_cons_of_mem _ h)

/-- A map over the values of a table. -/
theorem Sparse.get_map {α β : Type} (d : α) (e : β) (f : Nat → α → β) (m : Sparse α) (k : Nat) (h : f k d = e) :
    Sparse.get e (m.map (fun x => (x.1, f x.1 x.2))) k = f k (Sparse.get d m k) := by
  induction m with
  | nil => simp [Sparse.get, h]
  | cons x m ih =>
    obtain ⟨k', v'⟩ := x
    simp only [List.map_cons, Sparse.get]
    split
    · next c => subst c; rfl
    · exact ih

/-! ### Byte memories: reads -/

theorem Mem.get_erase (d : Byte) (m : Mem) (a b : Nat) : Mem.get d (Mem.erase m a) b = if b = a then d else Mem.get d m b := by
  induction m with
  | nil => simp [Mem.erase, Mem.get]
  | cons x m ih =>
    obtain ⟨k, v⟩ := x
    simp only [Mem.erase]
    split
    · next e => subst e; rw [ih]; by_cases c : b = k <;> simp [Mem.get, c, Ne.symm]
    · next e =>
      simp only [Mem.get]
      split
      · next c => subst c; simp [e]
      · exact ih

theorem Mem.get_insert (d : Byte) (m : Mem) (a b : Nat) (v : Byte) :
    Mem.get d (Mem.insert m a v) b = if b = a then v else Mem.get d m b := by
  induction m with
  | nil => by_cases c : b = a <;> simp [Mem.insert, Mem.get, c]; intro h; exact absurd h.symm c
  | cons x m ih =>
    obtain ⟨k, w⟩ := x
    simp only [Mem.insert]
    split
    · next e => subst e; by_cases c : b = k <;> simp [Mem.get, c]; rw [if_neg (Ne.symm c), if_neg (Ne.symm c)]
    · split
      · by_cases c : b = a
        · simp [Mem.get, c]
        · simp [Mem.get, c, Ne.symm c]
      · next e _ =>
        simp only [Mem.get]
        split
        · next c => subst c; simp [e]
        · exact ih

/-- A byte that was written reads back; every other byte stays. -/
theorem Mem.get_set (d : Byte) (m : Mem) (a b : Nat) (v : Byte) :
    Mem.get d (Mem.set d m a v) b = if b = a then v else Mem.get d m b := by
  unfold Mem.set
  split
  · next e => rw [Mem.get_erase, e]
  · exact Mem.get_insert d m a b v

/-- The byte at `b` is the written one or stays. -/
theorem Mem.get_set' (dflt : Nat → Byte) (m : Mem) (a b : Nat) (v : Byte) :
    Mem.get (dflt b) (Mem.set (dflt a) m a v) b = if b = a then v else Mem.get (dflt b) m b := by
  by_cases c : b = a
  · subst c; exact Mem.get_set _ _ _ _ _
  · unfold Mem.set
    split
    · rw [Mem.get_erase, if_neg c]
    · rw [Mem.get_insert, if_neg c]

/-- A run of bytes written from `a` on: inside it the new bytes, outside it the old ones. -/
theorem Mem.get_write (dflt : Nat → Byte) (bs : List Byte) : ∀ (m : Mem) (a b : Nat),
    Mem.get (dflt b) (Mem.write dflt m a bs) b =
      if a ≤ b ∧ b < a + bs.length then bs.getD (b - a) 0 else Mem.get (dflt b) m b := by
  induction bs with
  | nil => intro m a b; simp only [Mem.write, List.length_nil]; rw [if_neg (by omega)]
  | cons v bs ih =>
    intro m a b
    simp only [Mem.write, ih, Mem.get_set', List.length_cons]
    by_cases c : b = a
    · subst c; rw [if_neg (by omega), if_pos (by omega)]; simp
    · by_cases h : a + 1 ≤ b ∧ b < a + 1 + bs.length
      · rw [if_pos h, if_pos (by omega)]
        obtain ⟨n, hn⟩ : ∃ n, b - a = n + 1 := ⟨b - a - 1, by omega⟩
        rw [hn, List.getD_cons_succ]
        congr 1; omega
      · rw [if_neg h, if_neg c, if_neg (by omega)]

theorem Mem.get_write_out (dflt : Nat → Byte) (bs : List Byte) (m : Mem) (a b : Nat) (h : b < a ∨ a + bs.length ≤ b) :
    Mem.get (dflt b) (Mem.write dflt m a bs) b = Mem.get (dflt b) m b := by
  rw [Mem.get_write, if_neg (by omega)]

@[simp] theorem Mem.read_length (dflt : Nat → Byte) (m : Mem) (n : Nat) : ∀ a, (Mem.read dflt m a n).length = n := by
  induction n with
  | zero => intro a; rfl
  | succ n ih => intro a; simp [Mem.read, ih]

theorem Mem.read_getElem? (dflt : Nat → Byte) (m : Mem) (n : Nat) : ∀ (a i : Nat), i < n →
    (Mem.read dflt m a n)[i]? = some (Mem.get (dflt (a + i)) m (a + i)) := by
  induction n with
  | zero => intro a i h; omega
  | succ n ih =>
    intro a i h
    cases i with
    | zero => simp [Mem.read]
    | succ i =>
      simp only [Mem.read, List.getElem?_cons_succ]
      rw [ih (a + 1) i (by omega)]
      have : a + 1 + i = a + (i + 1) := by omega
      rw [this]

/-- A run reads back as it was written. -/
theorem Mem.read_write_self (dflt : Nat → Byte) (m : Mem) (a : Nat) (bs : List Byte) :
    Mem.read dflt (Mem.write dflt m a bs) a bs.length = bs := by
  apply List.ext_getElem?
  intro i
  by_cases h : i < bs.length
  · rw [Mem.read_getElem? _ _ _ _ _ h, Mem.get_write, if_pos (by omega), Nat.add_sub_cancel_left]
    simp [List.getD, h]
  · simp [Nat.le_of_not_lt h]

/-- Two memories that agree on a run read the same there. -/
theorem Mem.read_congr (dflt : Nat → Byte) (m m' : Mem) (a n : Nat)
    (h : ∀ i, i < n → Mem.get (dflt (a + i)) m (a + i) = Mem.get (dflt (a + i)) m' (a + i)) :
    Mem.read dflt m a n = Mem.read dflt m' a n := by
  apply List.ext_getElem?
  intro i
  by_cases c : i < n
  · rw [Mem.read_getElem? _ _ _ _ _ c, Mem.read_getElem? _ _ _ _ _ c, h i c]
  · simp [Nat.le_of_not_lt c]

/-- A run that does not meet the bytes written reads as before. -/
theorem Mem.read_write_out (dflt : Nat → Byte) (m : Mem) (a : Nat) (bs : List Byte) (b n : Nat)
    (h : b + n ≤ a ∨ a + bs.length ≤ b) : Mem.read dflt (Mem.write dflt m a bs) b n = Mem.read dflt m b n :=
  Mem.read_congr _ _ _ _ _ (fun i hi => Mem.get_write_out _ _ _ _ _ (by omega))

/-- A key of a filtered table reads as before where the filter keeps it, and as the default where it does not. -/
theorem Sparse.get_filter {α : Type} (d : α) (p : Nat → Bool) (m : Sparse α) (k : Nat) :
    Sparse.get d (m.filter (fun x => p x.1)) k = if p k then Sparse.get d m k else d := by
  induction m with
  | nil => simp [Sparse.get]
  | cons x m ih =>
    obtain ⟨j, v⟩ := x
    by_cases c : p j = true
    · rw [List.filter_cons_of_pos (by simpa using c)]
      by_cases e : j = k
      · subst e; simp [Sparse.get, c]
      · simp [Sparse.get, e, ih]
    · rw [List.filter_cons_of_neg (by simpa using c), ih]
      by_cases e : j = k
      · subst e; simp [c]
      · simp [Sparse.get, e]

/-! ### Byte memories: the canonical form -/

theorem Mem.sortedFrom_mono {lo lo' : Nat} (h : lo' ≤ lo) : ∀ {m : Mem}, Mem.sortedFrom lo m = true → Mem.sortedFrom lo' m = true
  | [], _ => rfl
  | (k, v) :: m, hm => by
    simp only [Mem.sortedFrom, Bool.and_eq_true, decide_eq_true_eq] at hm ⊢
    exact ⟨by omega, hm.2⟩

theorem Mem.sortedFrom_erase (a : Nat) : ∀ (m : Mem) (lo : Nat), Mem.sortedFrom lo m = true → Mem.sortedFrom lo (Mem.erase m a) = true
  | [], _, _ => rfl
  | (k, v) :: m, lo, hm => by
    simp only [Mem.sortedFrom, Bool.and_eq_true, decide_eq_true_eq] at hm
    have ih := Mem.sortedFrom_erase a m (k + 1) hm.2
    simp only [Mem.erase]
    split
    · exact Mem.sortedFrom_mono (by omega) ih
    · simp only [Mem.sortedFrom, Bool.and_eq_true, decide_eq_true_eq]; exact ⟨hm.1, ih⟩

theorem Mem.sortedFrom_insert (a : Nat) (v : Byte) : ∀ (m : Mem) (lo : Nat), lo ≤ a → Mem.sortedFrom lo m = true →
    Mem.sortedFrom lo (Mem.insert m a v) = true
  | [], lo, h, _ => by simp [Mem.insert, Mem.sortedFrom, h]
  | (k, w) :: m, lo, h, hm => by
    simp only [Mem.sortedFrom, Bool.and_eq_true, decide_eq_true_eq] at hm
    simp only [Mem.insert]
    split
    · next e => subst e; simp only [Mem.sortedFrom, Bool.and_eq_true, decide_eq_true_eq]; exact hm
    · split
      · simp only [Mem.sortedFrom, Bool.and_eq_true, decide_eq_true_eq]; exact ⟨h, by omega, hm.2⟩
      · simp only [Mem.sortedFrom, Bool.and_eq_true, decide_eq_true_eq]
        exact ⟨hm.1, Mem.sortedFrom_insert a v m (k + 1) (by omega) hm.2⟩

theorem Mem.mem_erase {a : Nat} {c : Host.Cell} : ∀ {m : Mem}, c ∈ Mem.erase m a → c ∈ m
  | [], h => h
  | (k, v) :: m, h => by
    simp only [Mem.erase] at h
    split at h
    · exact List.mem_cons_of_mem _ (Mem.mem_erase h)
    · rcases List.mem_cons.1 h with h | h
      · exact h ▸ List.mem_cons_self ..
      · exact List.mem_cons_of_mem _ (Mem.mem_erase h)

theorem Mem.mem_insert {a : Nat} {v : Byte} {c : Host.Cell} : ∀ {m : Mem}, c ∈ Mem.insert m a v → c = (a, v) ∨ c ∈ m
  | [], h => .inl (by simpa [Mem.insert] using h)
  | (k, w) :: m, h => by
    simp only [Mem.insert] at h
    split at h
    · rcases List.mem_cons.1 h with h | h
      · exact .inl h
      · exact .inr (List.mem_cons_of_mem _ h)
    · split at h
      · rcases List.mem_cons.1 h with h | h
        · exact .inl h
        · exact .inr h
      · rcases List.mem_cons.1 h with h | h
        · exact .inr (h ▸ List.mem_cons_self ..)
        · rcases Mem.mem_insert h with h | h
          · exact .inl h
          · exact .inr (List.mem_cons_of_mem _ h)

theorem Mem.wf_iff (dflt : Nat → Byte) (m : Mem) :
    Mem.wf dflt m = true ↔ Mem.sortedFrom 0 m = true ∧ ∀ c ∈ m, c.2 ≠ dflt c.1 := by
  simp [Mem.wf]

@[simp] theorem Mem.wf_nil (dflt : Nat → Byte) : Mem.wf dflt [] = true := rfl

/-- A write of one byte keeps the canonical form. -/
theorem Mem.wf_set {dflt : Nat → Byte} {m : Mem} (h : Mem.wf dflt m = true) (a : Nat) (v : Byte) :
    Mem.wf dflt (Mem.set (dflt a) m a v) = true := by
  rw [Mem.wf_iff] at h ⊢
  unfold Mem.set
  split
  · exact ⟨Mem.sortedFrom_erase a m 0 h.1, fun c hc => h.2 c (Mem.mem_erase hc)⟩
  · next hv =>
    refine ⟨Mem.sortedFrom_insert a v m 0 (Nat.zero_le _) h.1, fun c hc => ?_⟩
    rcases Mem.mem_insert hc with rfl | hc
    · exact hv
    · exact h.2 c hc

/-- A write of a run of bytes keeps the canonical form. -/
theorem Mem.wf_write {dflt : Nat → Byte} (bs : List Byte) : ∀ {m : Mem} (a : Nat), Mem.wf dflt m = true →
    Mem.wf dflt (Mem.write dflt m a bs) = true := by
  induction bs with
  | nil => intro m a h; exact h
  | cons b bs ih => intro m a h; exact ih (a + 1) (Mem.wf_set h a b)

/-- Leaving out some entries keeps the canonical form. -/
theorem Mem.wf_filter {dflt : Nat → Byte} {m : Mem} (p : Host.Cell → Bool) (h : Mem.wf dflt m = true) :
    Mem.wf dflt (m.filter p) = true := by
  rw [Mem.wf_iff] at h ⊢
  refine ⟨?_, fun c hc => h.2 c (List.mem_filter.1 hc).1⟩
  have key : ∀ (m : Mem) (lo : Nat), Mem.sortedFrom lo m = true → Mem.sortedFrom lo (m.filter p) = true := by
    intro m
    induction m with
    | nil => intro lo _; rfl
    | cons x m ih =>
      obtain ⟨k, v⟩ := x
      intro lo hm
      simp only [Mem.sortedFrom, Bool.and_eq_true, decide_eq_true_eq] at hm
      rw [List.filter_cons]
      split
      · simp only [Mem.sortedFrom, Bool.and_eq_true, decide_eq_true_eq]; exact ⟨hm.1, ih _ hm.2⟩
      · exact Mem.sortedFrom_mono (by omega) (ih _ hm.2)
  exact key m 0 h.1

end Sys2Proof.Machine
end

