-- ==== Sys2Proof/Laws/State.lean ====
section
/-!
SUPPORT. What each update of the state and of a parcel leaves alone, one lemma for each field, and what it puts.
-/
namespace Sys2Proof.Machine

/-! ### setParcel -/

@[simp] theorem State.setParcel_pending (s : State) (i : Pid) (ps : ParcelState) : (s.setParcel i ps).pending = s.pending := rfl
@[simp] theorem State.setParcel_free (s : State) (i : Pid) (ps : ParcelState) : (s.setParcel i ps).free = s.free := rfl
@[simp] theorem State.setParcel_core (s : State) (i : Pid) (ps : ParcelState) : (s.setParcel i ps).core = s.core := rfl
@[simp] theorem State.setParcel_boot (s : State) (i : Pid) (ps : ParcelState) : (s.setParcel i ps).boot = s.boot := rfl
@[simp] theorem State.setParcel_clk (s : State) (i : Pid) (ps : ParcelState) : (s.setParcel i ps).clk = s.clk := rfl
@[simp] theorem State.setParcel_time (s : State) (i : Pid) (ps : ParcelState) : (s.setParcel i ps).time = s.time := rfl
@[simp] theorem State.setParcel_pwr (s : State) (i : Pid) (ps : ParcelState) : (s.setParcel i ps).pwr = s.pwr := rfl
@[simp] theorem State.setParcel_cool (s : State) (i : Pid) (ps : ParcelState) : (s.setParcel i ps).cool = s.cool := rfl
@[simp] theorem State.setParcel_dists (s : State) (i : Pid) (ps : ParcelState) : (s.setParcel i ps).dists = s.dists := rfl
@[simp] theorem State.setParcel_net (s : State) (i : Pid) (ps : ParcelState) : (s.setParcel i ps).net = s.net := rfl
@[simp] theorem State.setParcel_stk (s : State) (i : Pid) (ps : ParcelState) : (s.setParcel i ps).stk = s.stk := rfl
@[simp] theorem State.setParcel_fab (s : State) (i : Pid) (ps : ParcelState) : (s.setParcel i ps).fab = s.fab := rfl
@[simp] theorem State.setParcel_load (s : State) (i : Pid) (ps : ParcelState) : (s.setParcel i ps).load = s.load := rfl
@[simp] theorem State.setParcel_model (s : State) (i : Pid) (ps : ParcelState) : (s.setParcel i ps).model = s.model := rfl
@[simp] theorem State.setParcel_serve (s : State) (i : Pid) (ps : ParcelState) : (s.setParcel i ps).serve = s.serve := rfl
@[simp] theorem State.setParcel_nv (s : State) (i : Pid) (ps : ParcelState) : (s.setParcel i ps).nv = s.nv := rfl
@[simp] theorem State.setParcel_sec (s : State) (i : Pid) (ps : ParcelState) : (s.setParcel i ps).sec = s.sec := rfl
@[simp] theorem State.setParcel_mgmt (s : State) (i : Pid) (ps : ParcelState) : (s.setParcel i ps).mgmt = s.mgmt := rfl
@[simp] theorem State.setParcel_cal (s : State) (i : Pid) (ps : ParcelState) : (s.setParcel i ps).cal = s.cal := rfl
@[simp] theorem State.setParcel_recov (s : State) (i : Pid) (ps : ParcelState) : (s.setParcel i ps).recov = s.recov := rfl
@[simp] theorem State.setParcel_tap (s : State) (i : Pid) (ps : ParcelState) : (s.setParcel i ps).tap = s.tap := rfl
@[simp] theorem State.setParcel_out (s : State) (i : Pid) (ps : ParcelState) : (s.setParcel i ps).out = s.out := rfl
@[simp] theorem State.setParcel_regRead (s : State) (i : Pid) (ps : ParcelState) : (s.setParcel i ps).regRead = s.regRead := rfl

/-! ### setDist -/

@[simp] theorem State.setDist_pending (s : State) (d : Nat) (x : DistState) : (s.setDist d x).pending = s.pending := rfl
@[simp] theorem State.setDist_free (s : State) (d : Nat) (x : DistState) : (s.setDist d x).free = s.free := rfl
@[simp] theorem State.setDist_core (s : State) (d : Nat) (x : DistState) : (s.setDist d x).core = s.core := rfl
@[simp] theorem State.setDist_boot (s : State) (d : Nat) (x : DistState) : (s.setDist d x).boot = s.boot := rfl
@[simp] theorem State.setDist_clk (s : State) (d : Nat) (x : DistState) : (s.setDist d x).clk = s.clk := rfl
@[simp] theorem State.setDist_time (s : State) (d : Nat) (x : DistState) : (s.setDist d x).time = s.time := rfl
@[simp] theorem State.setDist_pwr (s : State) (d : Nat) (x : DistState) : (s.setDist d x).pwr = s.pwr := rfl
@[simp] theorem State.setDist_cool (s : State) (d : Nat) (x : DistState) : (s.setDist d x).cool = s.cool := rfl
@[simp] theorem State.setDist_parcels (s : State) (d : Nat) (x : DistState) : (s.setDist d x).parcels = s.parcels := rfl
@[simp] theorem State.setDist_net (s : State) (d : Nat) (x : DistState) : (s.setDist d x).net = s.net := rfl
@[simp] theorem State.setDist_stk (s : State) (d : Nat) (x : DistState) : (s.setDist d x).stk = s.stk := rfl
@[simp] theorem State.setDist_fab (s : State) (d : Nat) (x : DistState) : (s.setDist d x).fab = s.fab := rfl
@[simp] theorem State.setDist_load (s : State) (d : Nat) (x : DistState) : (s.setDist d x).load = s.load := rfl
@[simp] theorem State.setDist_model (s : State) (d : Nat) (x : DistState) : (s.setDist d x).model = s.model := rfl
@[simp] theorem State.setDist_serve (s : State) (d : Nat) (x : DistState) : (s.setDist d x).serve = s.serve := rfl
@[simp] theorem State.setDist_nv (s : State) (d : Nat) (x : DistState) : (s.setDist d x).nv = s.nv := rfl
@[simp] theorem State.setDist_sec (s : State) (d : Nat) (x : DistState) : (s.setDist d x).sec = s.sec := rfl
@[simp] theorem State.setDist_mgmt (s : State) (d : Nat) (x : DistState) : (s.setDist d x).mgmt = s.mgmt := rfl
@[simp] theorem State.setDist_cal (s : State) (d : Nat) (x : DistState) : (s.setDist d x).cal = s.cal := rfl
@[simp] theorem State.setDist_recov (s : State) (d : Nat) (x : DistState) : (s.setDist d x).recov = s.recov := rfl
@[simp] theorem State.setDist_tap (s : State) (d : Nat) (x : DistState) : (s.setDist d x).tap = s.tap := rfl
@[simp] theorem State.setDist_out (s : State) (d : Nat) (x : DistState) : (s.setDist d x).out = s.out := rfl
@[simp] theorem State.setDist_regRead (s : State) (d : Nat) (x : DistState) : (s.setDist d x).regRead = s.regRead := rfl

/-! ### emit -/

@[simp] theorem State.emit_pending (s : State) (m : OutMsg) : (s.emit m).pending = s.pending := rfl
@[simp] theorem State.emit_free (s : State) (m : OutMsg) : (s.emit m).free = s.free := rfl
@[simp] theorem State.emit_core (s : State) (m : OutMsg) : (s.emit m).core = s.core := rfl
@[simp] theorem State.emit_boot (s : State) (m : OutMsg) : (s.emit m).boot = s.boot := rfl
@[simp] theorem State.emit_clk (s : State) (m : OutMsg) : (s.emit m).clk = s.clk := rfl
@[simp] theorem State.emit_time (s : State) (m : OutMsg) : (s.emit m).time = s.time := rfl
@[simp] theorem State.emit_pwr (s : State) (m : OutMsg) : (s.emit m).pwr = s.pwr := rfl
@[simp] theorem State.emit_cool (s : State) (m : OutMsg) : (s.emit m).cool = s.cool := rfl
@[simp] theorem State.emit_dists (s : State) (m : OutMsg) : (s.emit m).dists = s.dists := rfl
@[simp] theorem State.emit_parcels (s : State) (m : OutMsg) : (s.emit m).parcels = s.parcels := rfl
@[simp] theorem State.emit_net (s : State) (m : OutMsg) : (s.emit m).net = s.net := rfl
@[simp] theorem State.emit_stk (s : State) (m : OutMsg) : (s.emit m).stk = s.stk := rfl
@[simp] theorem State.emit_fab (s : State) (m : OutMsg) : (s.emit m).fab = s.fab := rfl
@[simp] theorem State.emit_load (s : State) (m : OutMsg) : (s.emit m).load = s.load := rfl
@[simp] theorem State.emit_model (s : State) (m : OutMsg) : (s.emit m).model = s.model := rfl
@[simp] theorem State.emit_serve (s : State) (m : OutMsg) : (s.emit m).serve = s.serve := rfl
@[simp] theorem State.emit_nv (s : State) (m : OutMsg) : (s.emit m).nv = s.nv := rfl
@[simp] theorem State.emit_sec (s : State) (m : OutMsg) : (s.emit m).sec = s.sec := rfl
@[simp] theorem State.emit_mgmt (s : State) (m : OutMsg) : (s.emit m).mgmt = s.mgmt := rfl
@[simp] theorem State.emit_cal (s : State) (m : OutMsg) : (s.emit m).cal = s.cal := rfl
@[simp] theorem State.emit_recov (s : State) (m : OutMsg) : (s.emit m).recov = s.recov := rfl
@[simp] theorem State.emit_tap (s : State) (m : OutMsg) : (s.emit m).tap = s.tap := rfl
@[simp] theorem State.emit_regRead (s : State) (m : OutMsg) : (s.emit m).regRead = s.regRead := rfl

/-! ### setPort -/

@[simp] theorem State.setPort_pending (s : State) (k : Nat) (x : Port) : (s.setPort k x).pending = s.pending := rfl
@[simp] theorem State.setPort_free (s : State) (k : Nat) (x : Port) : (s.setPort k x).free = s.free := rfl
@[simp] theorem State.setPort_core (s : State) (k : Nat) (x : Port) : (s.setPort k x).core = s.core := rfl
@[simp] theorem State.setPort_boot (s : State) (k : Nat) (x : Port) : (s.setPort k x).boot = s.boot := rfl
@[simp] theorem State.setPort_clk (s : State) (k : Nat) (x : Port) : (s.setPort k x).clk = s.clk := rfl
@[simp] theorem State.setPort_time (s : State) (k : Nat) (x : Port) : (s.setPort k x).time = s.time := rfl
@[simp] theorem State.setPort_pwr (s : State) (k : Nat) (x : Port) : (s.setPort k x).pwr = s.pwr := rfl
@[simp] theorem State.setPort_cool (s : State) (k : Nat) (x : Port) : (s.setPort k x).cool = s.cool := rfl
@[simp] theorem State.setPort_dists (s : State) (k : Nat) (x : Port) : (s.setPort k x).dists = s.dists := rfl
@[simp] theorem State.setPort_parcels (s : State) (k : Nat) (x : Port) : (s.setPort k x).parcels = s.parcels := rfl
@[simp] theorem State.setPort_net (s : State) (k : Nat) (x : Port) : (s.setPort k x).net = s.net := rfl
@[simp] theorem State.setPort_stk (s : State) (k : Nat) (x : Port) : (s.setPort k x).stk = s.stk := rfl
@[simp] theorem State.setPort_load (s : State) (k : Nat) (x : Port) : (s.setPort k x).load = s.load := rfl
@[simp] theorem State.setPort_model (s : State) (k : Nat) (x : Port) : (s.setPort k x).model = s.model := rfl
@[simp] theorem State.setPort_serve (s : State) (k : Nat) (x : Port) : (s.setPort k x).serve = s.serve := rfl
@[simp] theorem State.setPort_nv (s : State) (k : Nat) (x : Port) : (s.setPort k x).nv = s.nv := rfl
@[simp] theorem State.setPort_sec (s : State) (k : Nat) (x : Port) : (s.setPort k x).sec = s.sec := rfl
@[simp] theorem State.setPort_mgmt (s : State) (k : Nat) (x : Port) : (s.setPort k x).mgmt = s.mgmt := rfl
@[simp] theorem State.setPort_cal (s : State) (k : Nat) (x : Port) : (s.setPort k x).cal = s.cal := rfl
@[simp] theorem State.setPort_recov (s : State) (k : Nat) (x : Port) : (s.setPort k x).recov = s.recov := rfl
@[simp] theorem State.setPort_tap (s : State) (k : Nat) (x : Port) : (s.setPort k x).tap = s.tap := rfl
@[simp] theorem State.setPort_out (s : State) (k : Nat) (x : Port) : (s.setPort k x).out = s.out := rfl
@[simp] theorem State.setPort_regRead (s : State) (k : Nat) (x : Port) : (s.setPort k x).regRead = s.regRead := rfl

/-! ### setConn -/

@[simp] theorem State.setConn_pending (s : State) (r : Nat) (c : Conn) : (s.setConn r c).pending = s.pending := rfl
@[simp] theorem State.setConn_free (s : State) (r : Nat) (c : Conn) : (s.setConn r c).free = s.free := rfl
@[simp] theorem State.setConn_core (s : State) (r : Nat) (c : Conn) : (s.setConn r c).core = s.core := rfl
@[simp] theorem State.setConn_boot (s : State) (r : Nat) (c : Conn) : (s.setConn r c).boot = s.boot := rfl
@[simp] theorem State.setConn_clk (s : State) (r : Nat) (c : Conn) : (s.setConn r c).clk = s.clk := rfl
@[simp] theorem State.setConn_time (s : State) (r : Nat) (c : Conn) : (s.setConn r c).time = s.time := rfl
@[simp] theorem State.setConn_pwr (s : State) (r : Nat) (c : Conn) : (s.setConn r c).pwr = s.pwr := rfl
@[simp] theorem State.setConn_cool (s : State) (r : Nat) (c : Conn) : (s.setConn r c).cool = s.cool := rfl
@[simp] theorem State.setConn_dists (s : State) (r : Nat) (c : Conn) : (s.setConn r c).dists = s.dists := rfl
@[simp] theorem State.setConn_parcels (s : State) (r : Nat) (c : Conn) : (s.setConn r c).parcels = s.parcels := rfl
@[simp] theorem State.setConn_net (s : State) (r : Nat) (c : Conn) : (s.setConn r c).net = s.net := rfl
@[simp] theorem State.setConn_stk (s : State) (r : Nat) (c : Conn) : (s.setConn r c).stk = s.stk := rfl
@[simp] theorem State.setConn_load (s : State) (r : Nat) (c : Conn) : (s.setConn r c).load = s.load := rfl
@[simp] theorem State.setConn_model (s : State) (r : Nat) (c : Conn) : (s.setConn r c).model = s.model := rfl
@[simp] theorem State.setConn_serve (s : State) (r : Nat) (c : Conn) : (s.setConn r c).serve = s.serve := rfl
@[simp] theorem State.setConn_nv (s : State) (r : Nat) (c : Conn) : (s.setConn r c).nv = s.nv := rfl
@[simp] theorem State.setConn_sec (s : State) (r : Nat) (c : Conn) : (s.setConn r c).sec = s.sec := rfl
@[simp] theorem State.setConn_mgmt (s : State) (r : Nat) (c : Conn) : (s.setConn r c).mgmt = s.mgmt := rfl
@[simp] theorem State.setConn_cal (s : State) (r : Nat) (c : Conn) : (s.setConn r c).cal = s.cal := rfl
@[simp] theorem State.setConn_recov (s : State) (r : Nat) (c : Conn) : (s.setConn r c).recov = s.recov := rfl
@[simp] theorem State.setConn_tap (s : State) (r : Nat) (c : Conn) : (s.setConn r c).tap = s.tap := rfl
@[simp] theorem State.setConn_out (s : State) (r : Nat) (c : Conn) : (s.setConn r c).out = s.out := rfl
@[simp] theorem State.setConn_regRead (s : State) (r : Nat) (c : Conn) : (s.setConn r c).regRead = s.regRead := rfl

/-! ### setPeer -/

@[simp] theorem State.setPeer_pending (s : State) (e : Nat) (p : Peer) : (s.setPeer e p).pending = s.pending := rfl
@[simp] theorem State.setPeer_free (s : State) (e : Nat) (p : Peer) : (s.setPeer e p).free = s.free := rfl
@[simp] theorem State.setPeer_core (s : State) (e : Nat) (p : Peer) : (s.setPeer e p).core = s.core := rfl
@[simp] theorem State.setPeer_boot (s : State) (e : Nat) (p : Peer) : (s.setPeer e p).boot = s.boot := rfl
@[simp] theorem State.setPeer_clk (s : State) (e : Nat) (p : Peer) : (s.setPeer e p).clk = s.clk := rfl
@[simp] theorem State.setPeer_time (s : State) (e : Nat) (p : Peer) : (s.setPeer e p).time = s.time := rfl
@[simp] theorem State.setPeer_pwr (s : State) (e : Nat) (p : Peer) : (s.setPeer e p).pwr = s.pwr := rfl
@[simp] theorem State.setPeer_cool (s : State) (e : Nat) (p : Peer) : (s.setPeer e p).cool = s.cool := rfl
@[simp] theorem State.setPeer_dists (s : State) (e : Nat) (p : Peer) : (s.setPeer e p).dists = s.dists := rfl
@[simp] theorem State.setPeer_parcels (s : State) (e : Nat) (p : Peer) : (s.setPeer e p).parcels = s.parcels := rfl
@[simp] theorem State.setPeer_net (s : State) (e : Nat) (p : Peer) : (s.setPeer e p).net = s.net := rfl
@[simp] theorem State.setPeer_stk (s : State) (e : Nat) (p : Peer) : (s.setPeer e p).stk = s.stk := rfl
@[simp] theorem State.setPeer_load (s : State) (e : Nat) (p : Peer) : (s.setPeer e p).load = s.load := rfl
@[simp] theorem State.setPeer_model (s : State) (e : Nat) (p : Peer) : (s.setPeer e p).model = s.model := rfl
@[simp] theorem State.setPeer_serve (s : State) (e : Nat) (p : Peer) : (s.setPeer e p).serve = s.serve := rfl
@[simp] theorem State.setPeer_nv (s : State) (e : Nat) (p : Peer) : (s.setPeer e p).nv = s.nv := rfl
@[simp] theorem State.setPeer_sec (s : State) (e : Nat) (p : Peer) : (s.setPeer e p).sec = s.sec := rfl
@[simp] theorem State.setPeer_mgmt (s : State) (e : Nat) (p : Peer) : (s.setPeer e p).mgmt = s.mgmt := rfl
@[simp] theorem State.setPeer_cal (s : State) (e : Nat) (p : Peer) : (s.setPeer e p).cal = s.cal := rfl
@[simp] theorem State.setPeer_recov (s : State) (e : Nat) (p : Peer) : (s.setPeer e p).recov = s.recov := rfl
@[simp] theorem State.setPeer_tap (s : State) (e : Nat) (p : Peer) : (s.setPeer e p).tap = s.tap := rfl
@[simp] theorem State.setPeer_out (s : State) (e : Nat) (p : Peer) : (s.setPeer e p).out = s.out := rfl
@[simp] theorem State.setPeer_regRead (s : State) (e : Nat) (p : Peer) : (s.setPeer e p).regRead = s.regRead := rfl

/-! ### moveFlit -/

@[simp] theorem State.moveFlit_pending (s : State) (f : Flit) : (s.moveFlit f).pending = s.pending := rfl
@[simp] theorem State.moveFlit_free (s : State) (f : Flit) : (s.moveFlit f).free = s.free := rfl
@[simp] theorem State.moveFlit_core (s : State) (f : Flit) : (s.moveFlit f).core = s.core := rfl
@[simp] theorem State.moveFlit_boot (s : State) (f : Flit) : (s.moveFlit f).boot = s.boot := rfl
@[simp] theorem State.moveFlit_clk (s : State) (f : Flit) : (s.moveFlit f).clk = s.clk := rfl
@[simp] theorem State.moveFlit_time (s : State) (f : Flit) : (s.moveFlit f).time = s.time := rfl
@[simp] theorem State.moveFlit_pwr (s : State) (f : Flit) : (s.moveFlit f).pwr = s.pwr := rfl
@[simp] theorem State.moveFlit_cool (s : State) (f : Flit) : (s.moveFlit f).cool = s.cool := rfl
@[simp] theorem State.moveFlit_dists (s : State) (f : Flit) : (s.moveFlit f).dists = s.dists := rfl
@[simp] theorem State.moveFlit_parcels (s : State) (f : Flit) : (s.moveFlit f).parcels = s.parcels := rfl
@[simp] theorem State.moveFlit_stk (s : State) (f : Flit) : (s.moveFlit f).stk = s.stk := rfl
@[simp] theorem State.moveFlit_fab (s : State) (f : Flit) : (s.moveFlit f).fab = s.fab := rfl
@[simp] theorem State.moveFlit_load (s : State) (f : Flit) : (s.moveFlit f).load = s.load := rfl
@[simp] theorem State.moveFlit_model (s : State) (f : Flit) : (s.moveFlit f).model = s.model := rfl
@[simp] theorem State.moveFlit_serve (s : State) (f : Flit) : (s.moveFlit f).serve = s.serve := rfl
@[simp] theorem State.moveFlit_nv (s : State) (f : Flit) : (s.moveFlit f).nv = s.nv := rfl
@[simp] theorem State.moveFlit_sec (s : State) (f : Flit) : (s.moveFlit f).sec = s.sec := rfl
@[simp] theorem State.moveFlit_mgmt (s : State) (f : Flit) : (s.moveFlit f).mgmt = s.mgmt := rfl
@[simp] theorem State.moveFlit_cal (s : State) (f : Flit) : (s.moveFlit f).cal = s.cal := rfl
@[simp] theorem State.moveFlit_recov (s : State) (f : Flit) : (s.moveFlit f).recov = s.recov := rfl
@[simp] theorem State.moveFlit_tap (s : State) (f : Flit) : (s.moveFlit f).tap = s.tap := rfl
@[simp] theorem State.moveFlit_out (s : State) (f : Flit) : (s.moveFlit f).out = s.out := rfl
@[simp] theorem State.moveFlit_regRead (s : State) (f : Flit) : (s.moveFlit f).regRead = s.regRead := rfl

/-! ### putFlit -/

@[simp] theorem State.putFlit_pending (s : State) (f : Flit) (leg : Nat) (l : Loc) : (s.putFlit f leg l).pending = s.pending := rfl
@[simp] theorem State.putFlit_free (s : State) (f : Flit) (leg : Nat) (l : Loc) : (s.putFlit f leg l).free = s.free := rfl
@[simp] theorem State.putFlit_core (s : State) (f : Flit) (leg : Nat) (l : Loc) : (s.putFlit f leg l).core = s.core := rfl
@[simp] theorem State.putFlit_boot (s : State) (f : Flit) (leg : Nat) (l : Loc) : (s.putFlit f leg l).boot = s.boot := rfl
@[simp] theorem State.putFlit_clk (s : State) (f : Flit) (leg : Nat) (l : Loc) : (s.putFlit f leg l).clk = s.clk := rfl
@[simp] theorem State.putFlit_time (s : State) (f : Flit) (leg : Nat) (l : Loc) : (s.putFlit f leg l).time = s.time := rfl
@[simp] theorem State.putFlit_pwr (s : State) (f : Flit) (leg : Nat) (l : Loc) : (s.putFlit f leg l).pwr = s.pwr := rfl
@[simp] theorem State.putFlit_cool (s : State) (f : Flit) (leg : Nat) (l : Loc) : (s.putFlit f leg l).cool = s.cool := rfl
@[simp] theorem State.putFlit_dists (s : State) (f : Flit) (leg : Nat) (l : Loc) : (s.putFlit f leg l).dists = s.dists := rfl
@[simp] theorem State.putFlit_parcels (s : State) (f : Flit) (leg : Nat) (l : Loc) : (s.putFlit f leg l).parcels = s.parcels := rfl
@[simp] theorem State.putFlit_stk (s : State) (f : Flit) (leg : Nat) (l : Loc) : (s.putFlit f leg l).stk = s.stk := rfl
@[simp] theorem State.putFlit_fab (s : State) (f : Flit) (leg : Nat) (l : Loc) : (s.putFlit f leg l).fab = s.fab := rfl
@[simp] theorem State.putFlit_load (s : State) (f : Flit) (leg : Nat) (l : Loc) : (s.putFlit f leg l).load = s.load := rfl
@[simp] theorem State.putFlit_model (s : State) (f : Flit) (leg : Nat) (l : Loc) : (s.putFlit f leg l).model = s.model := rfl
@[simp] theorem State.putFlit_serve (s : State) (f : Flit) (leg : Nat) (l : Loc) : (s.putFlit f leg l).serve = s.serve := rfl
@[simp] theorem State.putFlit_nv (s : State) (f : Flit) (leg : Nat) (l : Loc) : (s.putFlit f leg l).nv = s.nv := rfl
@[simp] theorem State.putFlit_sec (s : State) (f : Flit) (leg : Nat) (l : Loc) : (s.putFlit f leg l).sec = s.sec := rfl
@[simp] theorem State.putFlit_mgmt (s : State) (f : Flit) (leg : Nat) (l : Loc) : (s.putFlit f leg l).mgmt = s.mgmt := rfl
@[simp] theorem State.putFlit_cal (s : State) (f : Flit) (leg : Nat) (l : Loc) : (s.putFlit f leg l).cal = s.cal := rfl
@[simp] theorem State.putFlit_recov (s : State) (f : Flit) (leg : Nat) (l : Loc) : (s.putFlit f leg l).recov = s.recov := rfl
@[simp] theorem State.putFlit_tap (s : State) (f : Flit) (leg : Nat) (l : Loc) : (s.putFlit f leg l).tap = s.tap := rfl
@[simp] theorem State.putFlit_out (s : State) (f : Flit) (leg : Nat) (l : Loc) : (s.putFlit f leg l).out = s.out := rfl
@[simp] theorem State.putFlit_regRead (s : State) (f : Flit) (leg : Nat) (l : Loc) : (s.putFlit f leg l).regRead = s.regRead := rfl

/-! ### dropFlit -/

@[simp] theorem State.dropFlit_pending (s : State) (id : Nat) : (s.dropFlit id).pending = s.pending := rfl
@[simp] theorem State.dropFlit_free (s : State) (id : Nat) : (s.dropFlit id).free = s.free := rfl
@[simp] theorem State.dropFlit_core (s : State) (id : Nat) : (s.dropFlit id).core = s.core := rfl
@[simp] theorem State.dropFlit_boot (s : State) (id : Nat) : (s.dropFlit id).boot = s.boot := rfl
@[simp] theorem State.dropFlit_clk (s : State) (id : Nat) : (s.dropFlit id).clk = s.clk := rfl
@[simp] theorem State.dropFlit_time (s : State) (id : Nat) : (s.dropFlit id).time = s.time := rfl
@[simp] theorem State.dropFlit_pwr (s : State) (id : Nat) : (s.dropFlit id).pwr = s.pwr := rfl
@[simp] theorem State.dropFlit_cool (s : State) (id : Nat) : (s.dropFlit id).cool = s.cool := rfl
@[simp] theorem State.dropFlit_dists (s : State) (id : Nat) : (s.dropFlit id).dists = s.dists := rfl
@[simp] theorem State.dropFlit_parcels (s : State) (id : Nat) : (s.dropFlit id).parcels = s.parcels := rfl
@[simp] theorem State.dropFlit_stk (s : State) (id : Nat) : (s.dropFlit id).stk = s.stk := rfl
@[simp] theorem State.dropFlit_fab (s : State) (id : Nat) : (s.dropFlit id).fab = s.fab := rfl
@[simp] theorem State.dropFlit_load (s : State) (id : Nat) : (s.dropFlit id).load = s.load := rfl
@[simp] theorem State.dropFlit_model (s : State) (id : Nat) : (s.dropFlit id).model = s.model := rfl
@[simp] theorem State.dropFlit_serve (s : State) (id : Nat) : (s.dropFlit id).serve = s.serve := rfl
@[simp] theorem State.dropFlit_nv (s : State) (id : Nat) : (s.dropFlit id).nv = s.nv := rfl
@[simp] theorem State.dropFlit_sec (s : State) (id : Nat) : (s.dropFlit id).sec = s.sec := rfl
@[simp] theorem State.dropFlit_mgmt (s : State) (id : Nat) : (s.dropFlit id).mgmt = s.mgmt := rfl
@[simp] theorem State.dropFlit_cal (s : State) (id : Nat) : (s.dropFlit id).cal = s.cal := rfl
@[simp] theorem State.dropFlit_recov (s : State) (id : Nat) : (s.dropFlit id).recov = s.recov := rfl
@[simp] theorem State.dropFlit_tap (s : State) (id : Nat) : (s.dropFlit id).tap = s.tap := rfl
@[simp] theorem State.dropFlit_out (s : State) (id : Nat) : (s.dropFlit id).out = s.out := rfl
@[simp] theorem State.dropFlit_regRead (s : State) (id : Nat) : (s.dropFlit id).regRead = s.regRead := rfl

/-! ### stackPut -/

@[simp] theorem State.stackPut_pending (s : State) (a : Nat) (bs : List Byte) : (s.stackPut a bs).pending = s.pending := rfl
@[simp] theorem State.stackPut_free (s : State) (a : Nat) (bs : List Byte) : (s.stackPut a bs).free = s.free := rfl
@[simp] theorem State.stackPut_core (s : State) (a : Nat) (bs : List Byte) : (s.stackPut a bs).core = s.core := rfl
@[simp] theorem State.stackPut_boot (s : State) (a : Nat) (bs : List Byte) : (s.stackPut a bs).boot = s.boot := rfl
@[simp] theorem State.stackPut_clk (s : State) (a : Nat) (bs : List Byte) : (s.stackPut a bs).clk = s.clk := rfl
@[simp] theorem State.stackPut_time (s : State) (a : Nat) (bs : List Byte) : (s.stackPut a bs).time = s.time := rfl
@[simp] theorem State.stackPut_pwr (s : State) (a : Nat) (bs : List Byte) : (s.stackPut a bs).pwr = s.pwr := rfl
@[simp] theorem State.stackPut_cool (s : State) (a : Nat) (bs : List Byte) : (s.stackPut a bs).cool = s.cool := rfl
@[simp] theorem State.stackPut_dists (s : State) (a : Nat) (bs : List Byte) : (s.stackPut a bs).dists = s.dists := rfl
@[simp] theorem State.stackPut_parcels (s : State) (a : Nat) (bs : List Byte) : (s.stackPut a bs).parcels = s.parcels := rfl
@[simp] theorem State.stackPut_net (s : State) (a : Nat) (bs : List Byte) : (s.stackPut a bs).net = s.net := rfl
@[simp] theorem State.stackPut_fab (s : State) (a : Nat) (bs : List Byte) : (s.stackPut a bs).fab = s.fab := rfl
@[simp] theorem State.stackPut_load (s : State) (a : Nat) (bs : List Byte) : (s.stackPut a bs).load = s.load := rfl
@[simp] theorem State.stackPut_model (s : State) (a : Nat) (bs : List Byte) : (s.stackPut a bs).model = s.model := rfl
@[simp] theorem State.stackPut_serve (s : State) (a : Nat) (bs : List Byte) : (s.stackPut a bs).serve = s.serve := rfl
@[simp] theorem State.stackPut_nv (s : State) (a : Nat) (bs : List Byte) : (s.stackPut a bs).nv = s.nv := rfl
@[simp] theorem State.stackPut_sec (s : State) (a : Nat) (bs : List Byte) : (s.stackPut a bs).sec = s.sec := rfl
@[simp] theorem State.stackPut_mgmt (s : State) (a : Nat) (bs : List Byte) : (s.stackPut a bs).mgmt = s.mgmt := rfl
@[simp] theorem State.stackPut_cal (s : State) (a : Nat) (bs : List Byte) : (s.stackPut a bs).cal = s.cal := rfl
@[simp] theorem State.stackPut_recov (s : State) (a : Nat) (bs : List Byte) : (s.stackPut a bs).recov = s.recov := rfl
@[simp] theorem State.stackPut_tap (s : State) (a : Nat) (bs : List Byte) : (s.stackPut a bs).tap = s.tap := rfl
@[simp] theorem State.stackPut_out (s : State) (a : Nat) (bs : List Byte) : (s.stackPut a bs).out = s.out := rfl
@[simp] theorem State.stackPut_regRead (s : State) (a : Nat) (bs : List Byte) : (s.stackPut a bs).regRead = s.regRead := rfl

/-! ### Reading back -/

@[simp] theorem State.parcel_setParcel_self (s : State) (i : Pid) (ps : ParcelState) : (s.setParcel i ps).parcel i = ps :=
  Sparse.get_put_self _ _ _ _

theorem Pid.key_inj {i j : Pid} (h : i.key = j.key) : i = j := by
  obtain ⟨⟨a, ha⟩, ⟨b, hb⟩⟩ := i
  obtain ⟨⟨c, hc⟩, ⟨d, hd⟩⟩ := j
  simp only [Pid.key] at h
  have : a = c ∧ b = d := by omega
  simp [this]

theorem State.parcel_setParcel_ne (s : State) {i j : Pid} (ps : ParcelState) (h : j ≠ i) :
    (s.setParcel i ps).parcel j = s.parcel j :=
  Sparse.get_put_ne _ _ _ (fun e => h (Pid.key_inj e))

@[simp] theorem State.dist_setDist_self (s : State) (d : Nat) (x : DistState) : (s.setDist d x).dist d = x :=
  Sparse.get_put_self _ _ _ _

theorem State.dist_setDist_ne (s : State) {d e : Nat} (x : DistState) (h : e ≠ d) : (s.setDist d x).dist e = s.dist e :=
  Sparse.get_put_ne _ _ _ h

@[simp] theorem State.dist_setParcel (s : State) (i : Pid) (ps : ParcelState) (d : Nat) : (s.setParcel i ps).dist d = s.dist d := rfl
@[simp] theorem State.parcel_setDist (s : State) (d : Nat) (x : DistState) (i : Pid) : (s.setDist d x).parcel i = s.parcel i := rfl
@[simp] theorem State.running_setParcel (s : State) (i j : Pid) (ps : ParcelState) : (s.setParcel i ps).running j = s.running j := rfl

/-! ### A parcel -/

@[simp] theorem ParcelState.lot_setLot_self (ps : ParcelState) (l : Nat) (x : LotState) : (ps.setLot l x).lot l = x :=
  Sparse.get_put_self _ _ _ _

theorem ParcelState.lot_setLot_ne (ps : ParcelState) {l m : Nat} (x : LotState) (h : m ≠ l) : (ps.setLot l x).lot m = ps.lot m :=
  Sparse.get_put_ne _ _ _ h

@[simp] theorem ParcelState.gReg_zero (ps : ParcelState) : ps.gReg 0 = 0 := rfl

/-- A write of a scalar register: the register reads back, g0 stays 0, every other register stays. -/
theorem ParcelState.gReg_setG (ps : ParcelState) (i j : Nat) (v : Word) :
    (ps.setG i v).gReg j = if j = i ∧ i ≠ 0 then v else ps.gReg j := by
  by_cases hi : i = 0
  · simp [ParcelState.setG, hi]
  · by_cases hj : j = 0
    · subst hj; simp [Ne.symm hi]
    · by_cases hf : ps.swp.fw = true <;> by_cases e : j = i <;>
        simp [ParcelState.setG, ParcelState.gReg, hi, hj, hf, e, Sparse.get_put_ne]

/-- What is written to SRAM reads back. -/
@[simp] theorem ParcelState.read_write_self (ps : ParcelState) (a : Nat) (bs : List Byte) : (ps.write a bs).read a bs.length = bs :=
  Mem.read_write_self _ _ _ _

/-- SRAM outside the bytes written stays. -/
theorem ParcelState.read_write_out (ps : ParcelState) (a : Nat) (bs : List Byte) (b n : Nat)
    (h : b + n ≤ a ∨ a + bs.length ≤ b) : (ps.write a bs).read b n = ps.read b n :=
  Mem.read_write_out _ _ _ _ _ _ h

/-- A write keeps the SRAM's canonical form. -/
theorem ParcelState.wf_write {ps : ParcelState} (h : Mem.wf sramDflt ps.sram = true) (a : Nat) (bs : List Byte) :
    Mem.wf sramDflt (ps.write a bs).sram = true := Mem.wf_write bs a h

@[simp] theorem ParcelState.setLot_sram (ps : ParcelState) (l : Nat) (x : LotState) : (ps.setLot l x).sram = ps.sram := rfl
@[simp] theorem ParcelState.setLot_swp (ps : ParcelState) (l : Nat) (x : LotState) : (ps.setLot l x).swp = ps.swp := rfl
@[simp] theorem ParcelState.setLot_meter (ps : ParcelState) (l : Nat) (x : LotState) : (ps.setLot l x).meter = ps.meter := rfl
@[simp] theorem ParcelState.setLot_reg (ps : ParcelState) (l : Nat) (x : LotState) : (ps.setLot l x).reg = ps.reg := rfl
@[simp] theorem ParcelState.setLot_health (ps : ParcelState) (l : Nat) (x : LotState) : (ps.setLot l x).health = ps.health := rfl
@[simp] theorem ParcelState.setLot_cls (ps : ParcelState) (l : Nat) (x : LotState) : (ps.setLot l x).cls = ps.cls := rfl
@[simp] theorem ParcelState.setLot_win (ps : ParcelState) (l : Nat) (x : LotState) : (ps.setLot l x).win = ps.win := rfl
@[simp] theorem ParcelState.setLot_kv (ps : ParcelState) (l : Nat) (x : LotState) : (ps.setLot l x).kv = ps.kv := rfl
@[simp] theorem ParcelState.setLot_rtr (ps : ParcelState) (l : Nat) (x : LotState) : (ps.setLot l x).rtr = ps.rtr := rfl
@[simp] theorem ParcelState.setLot_map (ps : ParcelState) (l : Nat) (x : LotState) : (ps.setLot l x).map = ps.map := rfl
@[simp] theorem ParcelState.setLot_mapStaged (ps : ParcelState) (l : Nat) (x : LotState) : (ps.setLot l x).mapStaged = ps.mapStaged := rfl
@[simp] theorem ParcelState.setLot_mapArm (ps : ParcelState) (l : Nat) (x : LotState) : (ps.setLot l x).mapArm = ps.mapArm := rfl
@[simp] theorem ParcelState.setLot_mapBad (ps : ParcelState) (l : Nat) (x : LotState) : (ps.setLot l x).mapBad = ps.mapBad := rfl
@[simp] theorem ParcelState.setLot_dme (ps : ParcelState) (l : Nat) (x : LotState) : (ps.setLot l x).dme = ps.dme := rfl
@[simp] theorem ParcelState.setLot_tags (ps : ParcelState) (l : Nat) (x : LotState) : (ps.setLot l x).tags = ps.tags := rfl
@[simp] theorem ParcelState.setLot_tokens (ps : ParcelState) (l : Nat) (x : LotState) : (ps.setLot l x).tokens = ps.tokens := rfl
@[simp] theorem ParcelState.setLot_lq (ps : ParcelState) (l : Nat) (x : LotState) : (ps.setLot l x).lq = ps.lq := rfl
@[simp] theorem ParcelState.setLot_sq (ps : ParcelState) (l : Nat) (x : LotState) : (ps.setLot l x).sq = ps.sq := rfl
@[simp] theorem ParcelState.setLot_kapq (ps : ParcelState) (l : Nat) (x : LotState) : (ps.setLot l x).kapq = ps.kapq := rfl
@[simp] theorem ParcelState.setLot_lane (ps : ParcelState) (l : Nat) (x : LotState) : (ps.setLot l x).lane = ps.lane := rfl
@[simp] theorem ParcelState.setLot_writeCredits (ps : ParcelState) (l : Nat) (x : LotState) : (ps.setLot l x).writeCredits = ps.writeCredits := rfl
@[simp] theorem ParcelState.setLot_poolCredits (ps : ParcelState) (l : Nat) (x : LotState) : (ps.setLot l x).poolCredits = ps.poolCredits := rfl
@[simp] theorem ParcelState.setLot_nextId (ps : ParcelState) (l : Nat) (x : LotState) : (ps.setLot l x).nextId = ps.nextId := rfl
@[simp] theorem ParcelState.setLot_reports (ps : ParcelState) (l : Nat) (x : LotState) : (ps.setLot l x).reports = ps.reports := rfl

@[simp] theorem ParcelState.write_swp (ps : ParcelState) (a : Nat) (bs : List Byte) : (ps.write a bs).swp = ps.swp := rfl
@[simp] theorem ParcelState.write_meter (ps : ParcelState) (a : Nat) (bs : List Byte) : (ps.write a bs).meter = ps.meter := rfl
@[simp] theorem ParcelState.write_reg (ps : ParcelState) (a : Nat) (bs : List Byte) : (ps.write a bs).reg = ps.reg := rfl
@[simp] theorem ParcelState.write_health (ps : ParcelState) (a : Nat) (bs : List Byte) : (ps.write a bs).health = ps.health := rfl
@[simp] theorem ParcelState.write_cls (ps : ParcelState) (a : Nat) (bs : List Byte) : (ps.write a bs).cls = ps.cls := rfl
@[simp] theorem ParcelState.write_win (ps : ParcelState) (a : Nat) (bs : List Byte) : (ps.write a bs).win = ps.win := rfl
@[simp] theorem ParcelState.write_kv (ps : ParcelState) (a : Nat) (bs : List Byte) : (ps.write a bs).kv = ps.kv := rfl
@[simp] theorem ParcelState.write_rtr (ps : ParcelState) (a : Nat) (bs : List Byte) : (ps.write a bs).rtr = ps.rtr := rfl
@[simp] theorem ParcelState.write_map (ps : ParcelState) (a : Nat) (bs : List Byte) : (ps.write a bs).map = ps.map := rfl
@[simp] theorem ParcelState.write_mapStaged (ps : ParcelState) (a : Nat) (bs : List Byte) : (ps.write a bs).mapStaged = ps.mapStaged := rfl
@[simp] theorem ParcelState.write_mapArm (ps : ParcelState) (a : Nat) (bs : List Byte) : (ps.write a bs).mapArm = ps.mapArm := rfl
@[simp] theorem ParcelState.write_mapBad (ps : ParcelState) (a : Nat) (bs : List Byte) : (ps.write a bs).mapBad = ps.mapBad := rfl
@[simp] theorem ParcelState.write_lots (ps : ParcelState) (a : Nat) (bs : List Byte) : (ps.write a bs).lots = ps.lots := rfl
@[simp] theorem ParcelState.write_dme (ps : ParcelState) (a : Nat) (bs : List Byte) : (ps.write a bs).dme = ps.dme := rfl
@[simp] theorem ParcelState.write_tags (ps : ParcelState) (a : Nat) (bs : List Byte) : (ps.write a bs).tags = ps.tags := rfl
@[simp] theorem ParcelState.write_tokens (ps : ParcelState) (a : Nat) (bs : List Byte) : (ps.write a bs).tokens = ps.tokens := rfl
@[simp] theorem ParcelState.write_lq (ps : ParcelState) (a : Nat) (bs : List Byte) : (ps.write a bs).lq = ps.lq := rfl
@[simp] theorem ParcelState.write_sq (ps : ParcelState) (a : Nat) (bs : List Byte) : (ps.write a bs).sq = ps.sq := rfl
@[simp] theorem ParcelState.write_kapq (ps : ParcelState) (a : Nat) (bs : List Byte) : (ps.write a bs).kapq = ps.kapq := rfl
@[simp] theorem ParcelState.write_lane (ps : ParcelState) (a : Nat) (bs : List Byte) : (ps.write a bs).lane = ps.lane := rfl
@[simp] theorem ParcelState.write_writeCredits (ps : ParcelState) (a : Nat) (bs : List Byte) : (ps.write a bs).writeCredits = ps.writeCredits := rfl
@[simp] theorem ParcelState.write_poolCredits (ps : ParcelState) (a : Nat) (bs : List Byte) : (ps.write a bs).poolCredits = ps.poolCredits := rfl
@[simp] theorem ParcelState.write_nextId (ps : ParcelState) (a : Nat) (bs : List Byte) : (ps.write a bs).nextId = ps.nextId := rfl
@[simp] theorem ParcelState.write_reports (ps : ParcelState) (a : Nat) (bs : List Byte) : (ps.write a bs).reports = ps.reports := rfl

@[simp] theorem ParcelState.count_sram (ps : ParcelState) (t : Nat) (ev : Ev) : (ps.count t ev).sram = ps.sram := rfl
@[simp] theorem ParcelState.count_swp (ps : ParcelState) (t : Nat) (ev : Ev) : (ps.count t ev).swp = ps.swp := rfl
@[simp] theorem ParcelState.count_meter (ps : ParcelState) (t : Nat) (ev : Ev) : (ps.count t ev).meter = ps.meter := rfl
@[simp] theorem ParcelState.count_reg (ps : ParcelState) (t : Nat) (ev : Ev) : (ps.count t ev).reg = ps.reg := rfl
@[simp] theorem ParcelState.count_health (ps : ParcelState) (t : Nat) (ev : Ev) : (ps.count t ev).health = ps.health := rfl
@[simp] theorem ParcelState.count_cls (ps : ParcelState) (t : Nat) (ev : Ev) : (ps.count t ev).cls = ps.cls := rfl
@[simp] theorem ParcelState.count_win (ps : ParcelState) (t : Nat) (ev : Ev) : (ps.count t ev).win = ps.win := rfl
@[simp] theorem ParcelState.count_kv (ps : ParcelState) (t : Nat) (ev : Ev) : (ps.count t ev).kv = ps.kv := rfl
@[simp] theorem ParcelState.count_rtr (ps : ParcelState) (t : Nat) (ev : Ev) : (ps.count t ev).rtr = ps.rtr := rfl
@[simp] theorem ParcelState.count_map (ps : ParcelState) (t : Nat) (ev : Ev) : (ps.count t ev).map = ps.map := rfl
@[simp] theorem ParcelState.count_mapStaged (ps : ParcelState) (t : Nat) (ev : Ev) : (ps.count t ev).mapStaged = ps.mapStaged := rfl
@[simp] theorem ParcelState.count_mapArm (ps : ParcelState) (t : Nat) (ev : Ev) : (ps.count t ev).mapArm = ps.mapArm := rfl
@[simp] theorem ParcelState.count_mapBad (ps : ParcelState) (t : Nat) (ev : Ev) : (ps.count t ev).mapBad = ps.mapBad := rfl
@[simp] theorem ParcelState.count_lots (ps : ParcelState) (t : Nat) (ev : Ev) : (ps.count t ev).lots = ps.lots := rfl
@[simp] theorem ParcelState.count_dme (ps : ParcelState) (t : Nat) (ev : Ev) : (ps.count t ev).dme = ps.dme := rfl
@[simp] theorem ParcelState.count_tokens (ps : ParcelState) (t : Nat) (ev : Ev) : (ps.count t ev).tokens = ps.tokens := rfl
@[simp] theorem ParcelState.count_lq (ps : ParcelState) (t : Nat) (ev : Ev) : (ps.count t ev).lq = ps.lq := rfl
@[simp] theorem ParcelState.count_sq (ps : ParcelState) (t : Nat) (ev : Ev) : (ps.count t ev).sq = ps.sq := rfl
@[simp] theorem ParcelState.count_kapq (ps : ParcelState) (t : Nat) (ev : Ev) : (ps.count t ev).kapq = ps.kapq := rfl
@[simp] theorem ParcelState.count_lane (ps : ParcelState) (t : Nat) (ev : Ev) : (ps.count t ev).lane = ps.lane := rfl
@[simp] theorem ParcelState.count_writeCredits (ps : ParcelState) (t : Nat) (ev : Ev) : (ps.count t ev).writeCredits = ps.writeCredits := rfl
@[simp] theorem ParcelState.count_poolCredits (ps : ParcelState) (t : Nat) (ev : Ev) : (ps.count t ev).poolCredits = ps.poolCredits := rfl
@[simp] theorem ParcelState.count_nextId (ps : ParcelState) (t : Nat) (ev : Ev) : (ps.count t ev).nextId = ps.nextId := rfl
@[simp] theorem ParcelState.count_reports (ps : ParcelState) (t : Nat) (ev : Ev) : (ps.count t ev).reports = ps.reports := rfl

@[simp] theorem ParcelState.countCrc_sram (ps : ParcelState) (t : Nat) : (ps.countCrc t).sram = ps.sram := rfl
@[simp] theorem ParcelState.countCrc_swp (ps : ParcelState) (t : Nat) : (ps.countCrc t).swp = ps.swp := rfl
@[simp] theorem ParcelState.countCrc_meter (ps : ParcelState) (t : Nat) : (ps.countCrc t).meter = ps.meter := rfl
@[simp] theorem ParcelState.countCrc_reg (ps : ParcelState) (t : Nat) : (ps.countCrc t).reg = ps.reg := rfl
@[simp] theorem ParcelState.countCrc_health (ps : ParcelState) (t : Nat) : (ps.countCrc t).health = ps.health := rfl
@[simp] theorem ParcelState.countCrc_cls (ps : ParcelState) (t : Nat) : (ps.countCrc t).cls = ps.cls := rfl
@[simp] theorem ParcelState.countCrc_win (ps : ParcelState) (t : Nat) : (ps.countCrc t).win = ps.win := rfl
@[simp] theorem ParcelState.countCrc_kv (ps : ParcelState) (t : Nat) : (ps.countCrc t).kv = ps.kv := rfl
@[simp] theorem ParcelState.countCrc_rtr (ps : ParcelState) (t : Nat) : (ps.countCrc t).rtr = ps.rtr := rfl
@[simp] theorem ParcelState.countCrc_map (ps : ParcelState) (t : Nat) : (ps.countCrc t).map = ps.map := rfl
@[simp] theorem ParcelState.countCrc_mapStaged (ps : ParcelState) (t : Nat) : (ps.countCrc t).mapStaged = ps.mapStaged := rfl
@[simp] theorem ParcelState.countCrc_mapArm (ps : ParcelState) (t : Nat) : (ps.countCrc t).mapArm = ps.mapArm := rfl
@[simp] theorem ParcelState.countCrc_mapBad (ps : ParcelState) (t : Nat) : (ps.countCrc t).mapBad = ps.mapBad := rfl
@[simp] theorem ParcelState.countCrc_lots (ps : ParcelState) (t : Nat) : (ps.countCrc t).lots = ps.lots := rfl
@[simp] theorem ParcelState.countCrc_dme (ps : ParcelState) (t : Nat) : (ps.countCrc t).dme = ps.dme := rfl
@[simp] theorem ParcelState.countCrc_tokens (ps : ParcelState) (t : Nat) : (ps.countCrc t).tokens = ps.tokens := rfl
@[simp] theorem ParcelState.countCrc_lq (ps : ParcelState) (t : Nat) : (ps.countCrc t).lq = ps.lq := rfl
@[simp] theorem ParcelState.countCrc_sq (ps : ParcelState) (t : Nat) : (ps.countCrc t).sq = ps.sq := rfl
@[simp] theorem ParcelState.countCrc_kapq (ps : ParcelState) (t : Nat) : (ps.countCrc t).kapq = ps.kapq := rfl
@[simp] theorem ParcelState.countCrc_lane (ps : ParcelState) (t : Nat) : (ps.countCrc t).lane = ps.lane := rfl
@[simp] theorem ParcelState.countCrc_writeCredits (ps : ParcelState) (t : Nat) : (ps.countCrc t).writeCredits = ps.writeCredits := rfl
@[simp] theorem ParcelState.countCrc_poolCredits (ps : ParcelState) (t : Nat) : (ps.countCrc t).poolCredits = ps.poolCredits := rfl
@[simp] theorem ParcelState.countCrc_nextId (ps : ParcelState) (t : Nat) : (ps.countCrc t).nextId = ps.nextId := rfl
@[simp] theorem ParcelState.countCrc_reports (ps : ParcelState) (t : Nat) : (ps.countCrc t).reports = ps.reports := rfl

@[simp] theorem ParcelState.raise_sram (ps : ParcelState) (cause unit tag lot epc : Nat) (fw : Bool) : (ps.raise cause unit tag lot epc fw).sram = ps.sram := rfl
@[simp] theorem ParcelState.raise_meter (ps : ParcelState) (cause unit tag lot epc : Nat) (fw : Bool) : (ps.raise cause unit tag lot epc fw).meter = ps.meter := rfl
@[simp] theorem ParcelState.raise_reg (ps : ParcelState) (cause unit tag lot epc : Nat) (fw : Bool) : (ps.raise cause unit tag lot epc fw).reg = ps.reg := rfl
@[simp] theorem ParcelState.raise_health (ps : ParcelState) (cause unit tag lot epc : Nat) (fw : Bool) : (ps.raise cause unit tag lot epc fw).health = ps.health := rfl
@[simp] theorem ParcelState.raise_cls (ps : ParcelState) (cause unit tag lot epc : Nat) (fw : Bool) : (ps.raise cause unit tag lot epc fw).cls = ps.cls := rfl
@[simp] theorem ParcelState.raise_win (ps : ParcelState) (cause unit tag lot epc : Nat) (fw : Bool) : (ps.raise cause unit tag lot epc fw).win = ps.win := rfl
@[simp] theorem ParcelState.raise_kv (ps : ParcelState) (cause unit tag lot epc : Nat) (fw : Bool) : (ps.raise cause unit tag lot epc fw).kv = ps.kv := rfl
@[simp] theorem ParcelState.raise_rtr (ps : ParcelState) (cause unit tag lot epc : Nat) (fw : Bool) : (ps.raise cause unit tag lot epc fw).rtr = ps.rtr := rfl
@[simp] theorem ParcelState.raise_map (ps : ParcelState) (cause unit tag lot epc : Nat) (fw : Bool) : (ps.raise cause unit tag lot epc fw).map = ps.map := rfl
@[simp] theorem ParcelState.raise_mapStaged (ps : ParcelState) (cause unit tag lot epc : Nat) (fw : Bool) : (ps.raise cause unit tag lot epc fw).mapStaged = ps.mapStaged := rfl
@[simp] theorem ParcelState.raise_mapArm (ps : ParcelState) (cause unit tag lot epc : Nat) (fw : Bool) : (ps.raise cause unit tag lot epc fw).mapArm = ps.mapArm := rfl
@[simp] theorem ParcelState.raise_mapBad (ps : ParcelState) (cause unit tag lot epc : Nat) (fw : Bool) : (ps.raise cause unit tag lot epc fw).mapBad = ps.mapBad := rfl
@[simp] theorem ParcelState.raise_lots (ps : ParcelState) (cause unit tag lot epc : Nat) (fw : Bool) : (ps.raise cause unit tag lot epc fw).lots = ps.lots := rfl
@[simp] theorem ParcelState.raise_dme (ps : ParcelState) (cause unit tag lot epc : Nat) (fw : Bool) : (ps.raise cause unit tag lot epc fw).dme = ps.dme := rfl
@[simp] theorem ParcelState.raise_tags (ps : ParcelState) (cause unit tag lot epc : Nat) (fw : Bool) : (ps.raise cause unit tag lot epc fw).tags = ps.tags := rfl
@[simp] theorem ParcelState.raise_tokens (ps : ParcelState) (cause unit tag lot epc : Nat) (fw : Bool) : (ps.raise cause unit tag lot epc fw).tokens = ps.tokens := rfl
@[simp] theorem ParcelState.raise_lq (ps : ParcelState) (cause unit tag lot epc : Nat) (fw : Bool) : (ps.raise cause unit tag lot epc fw).lq = ps.lq := rfl
@[simp] theorem ParcelState.raise_sq (ps : ParcelState) (cause unit tag lot epc : Nat) (fw : Bool) : (ps.raise cause unit tag lot epc fw).sq = ps.sq := rfl
@[simp] theorem ParcelState.raise_kapq (ps : ParcelState) (cause unit tag lot epc : Nat) (fw : Bool) : (ps.raise cause unit tag lot epc fw).kapq = ps.kapq := rfl
@[simp] theorem ParcelState.raise_lane (ps : ParcelState) (cause unit tag lot epc : Nat) (fw : Bool) : (ps.raise cause unit tag lot epc fw).lane = ps.lane := rfl
@[simp] theorem ParcelState.raise_writeCredits (ps : ParcelState) (cause unit tag lot epc : Nat) (fw : Bool) : (ps.raise cause unit tag lot epc fw).writeCredits = ps.writeCredits := rfl
@[simp] theorem ParcelState.raise_poolCredits (ps : ParcelState) (cause unit tag lot epc : Nat) (fw : Bool) : (ps.raise cause unit tag lot epc fw).poolCredits = ps.poolCredits := rfl
@[simp] theorem ParcelState.raise_nextId (ps : ParcelState) (cause unit tag lot epc : Nat) (fw : Bool) : (ps.raise cause unit tag lot epc fw).nextId = ps.nextId := rfl

@[simp] theorem ParcelState.setG_sram (ps : ParcelState) (i : Nat) (v : Word) : (ps.setG i v).sram = ps.sram := by
  unfold ParcelState.setG; repeat' split
  all_goals rfl
@[simp] theorem ParcelState.setG_meter (ps : ParcelState) (i : Nat) (v : Word) : (ps.setG i v).meter = ps.meter := by
  unfold ParcelState.setG; repeat' split
  all_goals rfl
@[simp] theorem ParcelState.setG_reg (ps : ParcelState) (i : Nat) (v : Word) : (ps.setG i v).reg = ps.reg := by
  unfold ParcelState.setG; repeat' split
  all_goals rfl
@[simp] theorem ParcelState.setG_health (ps : ParcelState) (i : Nat) (v : Word) : (ps.setG i v).health = ps.health := by
  unfold ParcelState.setG; repeat' split
  all_goals rfl
@[simp] theorem ParcelState.setG_cls (ps : ParcelState) (i : Nat) (v : Word) : (ps.setG i v).cls = ps.cls := by
  unfold ParcelState.setG; repeat' split
  all_goals rfl
@[simp] theorem ParcelState.setG_win (ps : ParcelState) (i : Nat) (v : Word) : (ps.setG i v).win = ps.win := by
  unfold ParcelState.setG; repeat' split
  all_goals rfl
@[simp] theorem ParcelState.setG_kv (ps : ParcelState) (i : Nat) (v : Word) : (ps.setG i v).kv = ps.kv := by
  unfold ParcelState.setG; repeat' split
  all_goals rfl
@[simp] theorem ParcelState.setG_rtr (ps : ParcelState) (i : Nat) (v : Word) : (ps.setG i v).rtr = ps.rtr := by
  unfold ParcelState.setG; repeat' split
  all_goals rfl
@[simp] theorem ParcelState.setG_map (ps : ParcelState) (i : Nat) (v : Word) : (ps.setG i v).map = ps.map := by
  unfold ParcelState.setG; repeat' split
  all_goals rfl
@[simp] theorem ParcelState.setG_mapStaged (ps : ParcelState) (i : Nat) (v : Word) : (ps.setG i v).mapStaged = ps.mapStaged := by
  unfold ParcelState.setG; repeat' split
  all_goals rfl
@[simp] theorem ParcelState.setG_mapArm (ps : ParcelState) (i : Nat) (v : Word) : (ps.setG i v).mapArm = ps.mapArm := by
  unfold ParcelState.setG; repeat' split
  all_goals rfl
@[simp] theorem ParcelState.setG_mapBad (ps : ParcelState) (i : Nat) (v : Word) : (ps.setG i v).mapBad = ps.mapBad := by
  unfold ParcelState.setG; repeat' split
  all_goals rfl
@[simp] theorem ParcelState.setG_lots (ps : ParcelState) (i : Nat) (v : Word) : (ps.setG i v).lots = ps.lots := by
  unfold ParcelState.setG; repeat' split
  all_goals rfl
@[simp] theorem ParcelState.setG_dme (ps : ParcelState) (i : Nat) (v : Word) : (ps.setG i v).dme = ps.dme := by
  unfold ParcelState.setG; repeat' split
  all_goals rfl
@[simp] theorem ParcelState.setG_tags (ps : ParcelState) (i : Nat) (v : Word) : (ps.setG i v).tags = ps.tags := by
  unfold ParcelState.setG; repeat' split
  all_goals rfl
@[simp] theorem ParcelState.setG_tokens (ps : ParcelState) (i : Nat) (v : Word) : (ps.setG i v).tokens = ps.tokens := by
  unfold ParcelState.setG; repeat' split
  all_goals rfl
@[simp] theorem ParcelState.setG_lq (ps : ParcelState) (i : Nat) (v : Word) : (ps.setG i v).lq = ps.lq := by
  unfold ParcelState.setG; repeat' split
  all_goals rfl
@[simp] theorem ParcelState.setG_sq (ps : ParcelState) (i : Nat) (v : Word) : (ps.setG i v).sq = ps.sq := by
  unfold ParcelState.setG; repeat' split
  all_goals rfl
@[simp] theorem ParcelState.setG_kapq (ps : ParcelState) (i : Nat) (v : Word) : (ps.setG i v).kapq = ps.kapq := by
  unfold ParcelState.setG; repeat' split
  all_goals rfl
@[simp] theorem ParcelState.setG_lane (ps : ParcelState) (i : Nat) (v : Word) : (ps.setG i v).lane = ps.lane := by
  unfold ParcelState.setG; repeat' split
  all_goals rfl
@[simp] theorem ParcelState.setG_writeCredits (ps : ParcelState) (i : Nat) (v : Word) : (ps.setG i v).writeCredits = ps.writeCredits := by
  unfold ParcelState.setG; repeat' split
  all_goals rfl
@[simp] theorem ParcelState.setG_poolCredits (ps : ParcelState) (i : Nat) (v : Word) : (ps.setG i v).poolCredits = ps.poolCredits := by
  unfold ParcelState.setG; repeat' split
  all_goals rfl
@[simp] theorem ParcelState.setG_nextId (ps : ParcelState) (i : Nat) (v : Word) : (ps.setG i v).nextId = ps.nextId := by
  unfold ParcelState.setG; repeat' split
  all_goals rfl
@[simp] theorem ParcelState.setG_reports (ps : ParcelState) (i : Nat) (v : Word) : (ps.setG i v).reports = ps.reports := by
  unfold ParcelState.setG; repeat' split
  all_goals rfl

@[simp] theorem ParcelState.setV_sram (ps : ParcelState) (i : Nat) (x : VReg) : (ps.setV i x).sram = ps.sram := by
  unfold ParcelState.setV; repeat' split
  all_goals rfl
@[simp] theorem ParcelState.setV_meter (ps : ParcelState) (i : Nat) (x : VReg) : (ps.setV i x).meter = ps.meter := by
  unfold ParcelState.setV; repeat' split
  all_goals rfl
@[simp] theorem ParcelState.setV_reg (ps : ParcelState) (i : Nat) (x : VReg) : (ps.setV i x).reg = ps.reg := by
  unfold ParcelState.setV; repeat' split
  all_goals rfl
@[simp] theorem ParcelState.setV_health (ps : ParcelState) (i : Nat) (x : VReg) : (ps.setV i x).health = ps.health := by
  unfold ParcelState.setV; repeat' split
  all_goals rfl
@[simp] theorem ParcelState.setV_cls (ps : ParcelState) (i : Nat) (x : VReg) : (ps.setV i x).cls = ps.cls := by
  unfold ParcelState.setV; repeat' split
  all_goals rfl
@[simp] theorem ParcelState.setV_win (ps : ParcelState) (i : Nat) (x : VReg) : (ps.setV i x).win = ps.win := by
  unfold ParcelState.setV; repeat' split
  all_goals rfl
@[simp] theorem ParcelState.setV_kv (ps : ParcelState) (i : Nat) (x : VReg) : (ps.setV i x).kv = ps.kv := by
  unfold ParcelState.setV; repeat' split
  all_goals rfl
@[simp] theorem ParcelState.setV_rtr (ps : ParcelState) (i : Nat) (x : VReg) : (ps.setV i x).rtr = ps.rtr := by
  unfold ParcelState.setV; repeat' split
  all_goals rfl
@[simp] theorem ParcelState.setV_map (ps : ParcelState) (i : Nat) (x : VReg) : (ps.setV i x).map = ps.map := by
  unfold ParcelState.setV; repeat' split
  all_goals rfl
@[simp] theorem ParcelState.setV_mapStaged (ps : ParcelState) (i : Nat) (x : VReg) : (ps.setV i x).mapStaged = ps.mapStaged := by
  unfold ParcelState.setV; repeat' split
  all_goals rfl
@[simp] theorem ParcelState.setV_mapArm (ps : ParcelState) (i : Nat) (x : VReg) : (ps.setV i x).mapArm = ps.mapArm := by
  unfold ParcelState.setV; repeat' split
  all_goals rfl
@[simp] theorem ParcelState.setV_mapBad (ps : ParcelState) (i : Nat) (x : VReg) : (ps.setV i x).mapBad = ps.mapBad := by
  unfold ParcelState.setV; repeat' split
  all_goals rfl
@[simp] theorem ParcelState.setV_lots (ps : ParcelState) (i : Nat) (x : VReg) : (ps.setV i x).lots = ps.lots := by
  unfold ParcelState.setV; repeat' split
  all_goals rfl
@[simp] theorem ParcelState.setV_dme (ps : ParcelState) (i : Nat) (x : VReg) : (ps.setV i x).dme = ps.dme := by
  unfold ParcelState.setV; repeat' split
  all_goals rfl
@[simp] theorem ParcelState.setV_tags (ps : ParcelState) (i : Nat) (x : VReg) : (ps.setV i x).tags = ps.tags := by
  unfold ParcelState.setV; repeat' split
  all_goals rfl
@[simp] theorem ParcelState.setV_tokens (ps : ParcelState) (i : Nat) (x : VReg) : (ps.setV i x).tokens = ps.tokens := by
  unfold ParcelState.setV; repeat' split
  all_goals rfl
@[simp] theorem ParcelState.setV_lq (ps : ParcelState) (i : Nat) (x : VReg) : (ps.setV i x).lq = ps.lq := by
  unfold ParcelState.setV; repeat' split
  all_goals rfl
@[simp] theorem ParcelState.setV_sq (ps : ParcelState) (i : Nat) (x : VReg) : (ps.setV i x).sq = ps.sq := by
  unfold ParcelState.setV; repeat' split
  all_goals rfl
@[simp] theorem ParcelState.setV_kapq (ps : ParcelState) (i : Nat) (x : VReg) : (ps.setV i x).kapq = ps.kapq := by
  unfold ParcelState.setV; repeat' split
  all_goals rfl
@[simp] theorem ParcelState.setV_lane (ps : ParcelState) (i : Nat) (x : VReg) : (ps.setV i x).lane = ps.lane := by
  unfold ParcelState.setV; repeat' split
  all_goals rfl
@[simp] theorem ParcelState.setV_writeCredits (ps : ParcelState) (i : Nat) (x : VReg) : (ps.setV i x).writeCredits = ps.writeCredits := by
  unfold ParcelState.setV; repeat' split
  all_goals rfl
@[simp] theorem ParcelState.setV_poolCredits (ps : ParcelState) (i : Nat) (x : VReg) : (ps.setV i x).poolCredits = ps.poolCredits := by
  unfold ParcelState.setV; repeat' split
  all_goals rfl
@[simp] theorem ParcelState.setV_nextId (ps : ParcelState) (i : Nat) (x : VReg) : (ps.setV i x).nextId = ps.nextId := by
  unfold ParcelState.setV; repeat' split
  all_goals rfl
@[simp] theorem ParcelState.setV_reports (ps : ParcelState) (i : Nat) (x : VReg) : (ps.setV i x).reports = ps.reports := by
  unfold ParcelState.setV; repeat' split
  all_goals rfl

@[simp] theorem ParcelState.setPc_sram (ps : ParcelState) (a : Nat) : (ps.setPc a).sram = ps.sram := by
  unfold ParcelState.setPc; repeat' split
  all_goals rfl
@[simp] theorem ParcelState.setPc_meter (ps : ParcelState) (a : Nat) : (ps.setPc a).meter = ps.meter := by
  unfold ParcelState.setPc; repeat' split
  all_goals rfl
@[simp] theorem ParcelState.setPc_reg (ps : ParcelState) (a : Nat) : (ps.setPc a).reg = ps.reg := by
  unfold ParcelState.setPc; repeat' split
  all_goals rfl
@[simp] theorem ParcelState.setPc_health (ps : ParcelState) (a : Nat) : (ps.setPc a).health = ps.health := by
  unfold ParcelState.setPc; repeat' split
  all_goals rfl
@[simp] theorem ParcelState.setPc_cls (ps : ParcelState) (a : Nat) : (ps.setPc a).cls = ps.cls := by
  unfold ParcelState.setPc; repeat' split
  all_goals rfl
@[simp] theorem ParcelState.setPc_win (ps : ParcelState) (a : Nat) : (ps.setPc a).win = ps.win := by
  unfold ParcelState.setPc; repeat' split
  all_goals rfl
@[simp] theorem ParcelState.setPc_kv (ps : ParcelState) (a : Nat) : (ps.setPc a).kv = ps.kv := by
  unfold ParcelState.setPc; repeat' split
  all_goals rfl
@[simp] theorem ParcelState.setPc_rtr (ps : ParcelState) (a : Nat) : (ps.setPc a).rtr = ps.rtr := by
  unfold ParcelState.setPc; repeat' split
  all_goals rfl
@[simp] theorem ParcelState.setPc_map (ps : ParcelState) (a : Nat) : (ps.setPc a).map = ps.map := by
  unfold ParcelState.setPc; repeat' split
  all_goals rfl
@[simp] theorem ParcelState.setPc_mapStaged (ps : ParcelState) (a : Nat) : (ps.setPc a).mapStaged = ps.mapStaged := by
  unfold ParcelState.setPc; repeat' split
  all_goals rfl
@[simp] theorem ParcelState.setPc_mapArm (ps : ParcelState) (a : Nat) : (ps.setPc a).mapArm = ps.mapArm := by
  unfold ParcelState.setPc; repeat' split
  all_goals rfl
@[simp] theorem ParcelState.setPc_mapBad (ps : ParcelState) (a : Nat) : (ps.setPc a).mapBad = ps.mapBad := by
  unfold ParcelState.setPc; repeat' split
  all_goals rfl
@[simp] theorem ParcelState.setPc_lots (ps : ParcelState) (a : Nat) : (ps.setPc a).lots = ps.lots := by
  unfold ParcelState.setPc; repeat' split
  all_goals rfl
@[simp] theorem ParcelState.setPc_dme (ps : ParcelState) (a : Nat) : (ps.setPc a).dme = ps.dme := by
  unfold ParcelState.setPc; repeat' split
  all_goals rfl
@[simp] theorem ParcelState.setPc_tags (ps : ParcelState) (a : Nat) : (ps.setPc a).tags = ps.tags := by
  unfold ParcelState.setPc; repeat' split
  all_goals rfl
@[simp] theorem ParcelState.setPc_tokens (ps : ParcelState) (a : Nat) : (ps.setPc a).tokens = ps.tokens := by
  unfold ParcelState.setPc; repeat' split
  all_goals rfl
@[simp] theorem ParcelState.setPc_lq (ps : ParcelState) (a : Nat) : (ps.setPc a).lq = ps.lq := by
  unfold ParcelState.setPc; repeat' split
  all_goals rfl
@[simp] theorem ParcelState.setPc_sq (ps : ParcelState) (a : Nat) : (ps.setPc a).sq = ps.sq := by
  unfold ParcelState.setPc; repeat' split
  all_goals rfl
@[simp] theorem ParcelState.setPc_kapq (ps : ParcelState) (a : Nat) : (ps.setPc a).kapq = ps.kapq := by
  unfold ParcelState.setPc; repeat' split
  all_goals rfl
@[simp] theorem ParcelState.setPc_lane (ps : ParcelState) (a : Nat) : (ps.setPc a).lane = ps.lane := by
  unfold ParcelState.setPc; repeat' split
  all_goals rfl
@[simp] theorem ParcelState.setPc_writeCredits (ps : ParcelState) (a : Nat) : (ps.setPc a).writeCredits = ps.writeCredits := by
  unfold ParcelState.setPc; repeat' split
  all_goals rfl
@[simp] theorem ParcelState.setPc_poolCredits (ps : ParcelState) (a : Nat) : (ps.setPc a).poolCredits = ps.poolCredits := by
  unfold ParcelState.setPc; repeat' split
  all_goals rfl
@[simp] theorem ParcelState.setPc_nextId (ps : ParcelState) (a : Nat) : (ps.setPc a).nextId = ps.nextId := by
  unfold ParcelState.setPc; repeat' split
  all_goals rfl
@[simp] theorem ParcelState.setPc_reports (ps : ParcelState) (a : Nat) : (ps.setPc a).reports = ps.reports := by
  unfold ParcelState.setPc; repeat' split
  all_goals rfl

end Sys2Proof.Machine
end

