-- ==== Sys2Proof/Laws/Ops.lean ====
section
/-!
SUPPORT. What the shared operations can do, once for each: stack writes, the fault log, events, messages of the engine, the checks of a
host command, the loads, stores and branches of a sweeper, the issue to a unit.
-/
namespace Sys2Proof.Machine

/-! ### The stack space -/

/-- A byte of the stack space after a write: the byte written, or what was there. -/
theorem State.byte_stackPut (s : State) (a : Nat) (bs : List Byte) (b : Nat) :
    (s.stackPut a bs).stk.byte b = if a ≤ b ∧ b < a + bs.length then bs.getD (b - a) 0 else s.stk.byte b := by
  simp only [State.stackPut, Stacks.byte, Mem.get_write]
  rw [Sparse.get_filter _ (fun k => !(decide (a ≤ k) && decide (k < a + bs.length)))]
  by_cases h : a ≤ b ∧ b < a + bs.length
  · simp [h]
  · rw [if_neg h, if_neg h]
    have : (decide (a ≤ b) && decide (b < a + bs.length)) = false := by simpa using h
    simp [this]

@[simp] theorem State.stackRead_stackPut_self (s : State) (a : Nat) (bs : List Byte) : (s.stackPut a bs).stackRead a bs.length = bs := by
  apply List.ext_getElem
  · simp [State.stackRead]
  · intro i h1 h2
    simp [State.stackRead, State.byte_stackPut, h2]

theorem State.stackRead_stackPut_out (s : State) (a : Nat) (bs : List Byte) (b n : Nat) (h : b + n ≤ a ∨ a + bs.length ≤ b) :
    (s.stackPut a bs).stackRead b n = s.stackRead b n := by
  simp only [State.stackRead]
  apply List.map_congr_left
  intro i hi
  rw [State.byte_stackPut, if_neg]
  have := List.mem_range.mp hi
  omega

theorem State.stackPut_wf {s : State} (h : Mem.wf stackDflt s.stk.mem = true) (a : Nat) (bs : List Byte) :
    Mem.wf stackDflt (s.stackPut a bs).stk.mem = true := Mem.wf_write bs a h

/-! ### The fault log and what the engine sends -/

/-- Before a registry answers, an entry counts in DROPPED. -/
theorem State.writeLog_dropped {s : State} (h : s.core.epoch = 0) (e : LogEvent) :
    s.writeLog e = { s with recov := { s.recov with dropped := satAdd 16 s.recov.dropped 1 } } := by
  simp [State.writeLog, h]

/-- With a registry it is written at the next place of the log, and counts. -/
theorem State.writeLog_kept {s : State} (h : s.core.epoch ≠ 0) (e : LogEvent) :
    s.writeLog e = { s.stackPut (logAddr s.recov.count) (storedRecord (rawBody (s.logEntry e))) with
      recov := { s.recov with count := s.recov.count + 1 } } := by
  simp [State.writeLog, h]

/-- A log entry touches the stacks and the log's counters. -/
theorem State.writeLog_eq (s : State) (e : LogEvent) :
    s.writeLog e = { s with stk := (s.writeLog e).stk, recov := (s.writeLog e).recov } := by
  by_cases h : s.core.epoch = 0
  · rw [State.writeLog_dropped h]
  · rw [State.writeLog_kept h]
    generalize logAddr s.recov.count = a
    generalize storedRecord (rawBody (s.logEntry e)) = bs
    rfl

/-- A message of the engine's own goes out, and counts in its trailer. -/
theorem State.notify_eq (s : State) (opcode status : Nat) (b : List Byte) :
    s.notify opcode status b = { s with out := (s.notify opcode status b).out, sec := (s.notify opcode status b).sec } := by
  unfold State.notify
  split <;> rfl

/-- An event touches the stacks, the log's counters, what leaves the engine and the event counter. -/
theorem State.event_eq (s : State) (e : LogEvent) :
    s.event e = { s with
      stk := (s.event e).stk, recov := (s.event e).recov, out := (s.event e).out, sec := (s.event e).sec } := by
  unfold State.event
  have h := State.writeLog_eq s e
  split
  · rw [h]
  · rw [State.notify_eq (s.writeLog e) _ _ _, h]

/-- Of the security block an event moves the event counter alone. -/
theorem State.notify_sec (s : State) (opcode status : Nat) (b : List Byte) :
    (s.notify opcode status b).sec = { s.sec with evCtr := (s.notify opcode status b).sec.evCtr } := by
  unfold State.notify
  split <;> rfl

/-! What the fault log, a message and an event leave alone, field by field. -/

@[simp] theorem State.writeLog_pending (s : State) (e : LogEvent) : (s.writeLog e).pending = s.pending := by
  rw [State.writeLog_eq]
@[simp] theorem State.writeLog_free (s : State) (e : LogEvent) : (s.writeLog e).free = s.free := by
  rw [State.writeLog_eq]
@[simp] theorem State.writeLog_core (s : State) (e : LogEvent) : (s.writeLog e).core = s.core := by
  rw [State.writeLog_eq]
@[simp] theorem State.writeLog_boot (s : State) (e : LogEvent) : (s.writeLog e).boot = s.boot := by
  rw [State.writeLog_eq]
@[simp] theorem State.writeLog_clk (s : State) (e : LogEvent) : (s.writeLog e).clk = s.clk := by
  rw [State.writeLog_eq]
@[simp] theorem State.writeLog_time (s : State) (e : LogEvent) : (s.writeLog e).time = s.time := by
  rw [State.writeLog_eq]
@[simp] theorem State.writeLog_pwr (s : State) (e : LogEvent) : (s.writeLog e).pwr = s.pwr := by
  rw [State.writeLog_eq]
@[simp] theorem State.writeLog_cool (s : State) (e : LogEvent) : (s.writeLog e).cool = s.cool := by
  rw [State.writeLog_eq]
@[simp] theorem State.writeLog_dists (s : State) (e : LogEvent) : (s.writeLog e).dists = s.dists := by
  rw [State.writeLog_eq]
@[simp] theorem State.writeLog_parcels (s : State) (e : LogEvent) : (s.writeLog e).parcels = s.parcels := by
  rw [State.writeLog_eq]
@[simp] theorem State.writeLog_net (s : State) (e : LogEvent) : (s.writeLog e).net = s.net := by
  rw [State.writeLog_eq]
@[simp] theorem State.writeLog_fab (s : State) (e : LogEvent) : (s.writeLog e).fab = s.fab := by
  rw [State.writeLog_eq]
@[simp] theorem State.writeLog_load (s : State) (e : LogEvent) : (s.writeLog e).load = s.load := by
  rw [State.writeLog_eq]
@[simp] theorem State.writeLog_model (s : State) (e : LogEvent) : (s.writeLog e).model = s.model := by
  rw [State.writeLog_eq]
@[simp] theorem State.writeLog_serve (s : State) (e : LogEvent) : (s.writeLog e).serve = s.serve := by
  rw [State.writeLog_eq]
@[simp] theorem State.writeLog_nv (s : State) (e : LogEvent) : (s.writeLog e).nv = s.nv := by
  rw [State.writeLog_eq]
@[simp] theorem State.writeLog_mgmt (s : State) (e : LogEvent) : (s.writeLog e).mgmt = s.mgmt := by
  rw [State.writeLog_eq]
@[simp] theorem State.writeLog_cal (s : State) (e : LogEvent) : (s.writeLog e).cal = s.cal := by
  rw [State.writeLog_eq]
@[simp] theorem State.writeLog_tap (s : State) (e : LogEvent) : (s.writeLog e).tap = s.tap := by
  rw [State.writeLog_eq]
@[simp] theorem State.writeLog_regRead (s : State) (e : LogEvent) : (s.writeLog e).regRead = s.regRead := by
  rw [State.writeLog_eq]
@[simp] theorem State.writeLog_sec (s : State) (e : LogEvent) : (s.writeLog e).sec = s.sec := by
  rw [State.writeLog_eq]
@[simp] theorem State.writeLog_out (s : State) (e : LogEvent) : (s.writeLog e).out = s.out := by
  rw [State.writeLog_eq]
@[simp] theorem State.writeLog_parcel (s : State) (e : LogEvent) (p : Pid) : (s.writeLog e).parcel p = s.parcel p := by
  simp only [State.parcel, State.writeLog_parcels]
@[simp] theorem State.writeLog_dist (s : State) (e : LogEvent) (d : Nat) : (s.writeLog e).dist d = s.dist d := by
  simp only [State.dist, State.writeLog_dists]

@[simp] theorem State.notify_pending (s : State) (o st : Nat) (b : List Byte) : (s.notify o st b).pending = s.pending := by
  rw [State.notify_eq]
@[simp] theorem State.notify_free (s : State) (o st : Nat) (b : List Byte) : (s.notify o st b).free = s.free := by
  rw [State.notify_eq]
@[simp] theorem State.notify_core (s : State) (o st : Nat) (b : List Byte) : (s.notify o st b).core = s.core := by
  rw [State.notify_eq]
@[simp] theorem State.notify_boot (s : State) (o st : Nat) (b : List Byte) : (s.notify o st b).boot = s.boot := by
  rw [State.notify_eq]
@[simp] theorem State.notify_clk (s : State) (o st : Nat) (b : List Byte) : (s.notify o st b).clk = s.clk := by
  rw [State.notify_eq]
@[simp] theorem State.notify_time (s : State) (o st : Nat) (b : List Byte) : (s.notify o st b).time = s.time := by
  rw [State.notify_eq]
@[simp] theorem State.notify_pwr (s : State) (o st : Nat) (b : List Byte) : (s.notify o st b).pwr = s.pwr := by
  rw [State.notify_eq]
@[simp] theorem State.notify_cool (s : State) (o st : Nat) (b : List Byte) : (s.notify o st b).cool = s.cool := by
  rw [State.notify_eq]
@[simp] theorem State.notify_dists (s : State) (o st : Nat) (b : List Byte) : (s.notify o st b).dists = s.dists := by
  rw [State.notify_eq]
@[simp] theorem State.notify_parcels (s : State) (o st : Nat) (b : List Byte) : (s.notify o st b).parcels = s.parcels := by
  rw [State.notify_eq]
@[simp] theorem State.notify_net (s : State) (o st : Nat) (b : List Byte) : (s.notify o st b).net = s.net := by
  rw [State.notify_eq]
@[simp] theorem State.notify_fab (s : State) (o st : Nat) (b : List Byte) : (s.notify o st b).fab = s.fab := by
  rw [State.notify_eq]
@[simp] theorem State.notify_load (s : State) (o st : Nat) (b : List Byte) : (s.notify o st b).load = s.load := by
  rw [State.notify_eq]
@[simp] theorem State.notify_model (s : State) (o st : Nat) (b : List Byte) : (s.notify o st b).model = s.model := by
  rw [State.notify_eq]
@[simp] theorem State.notify_serve (s : State) (o st : Nat) (b : List Byte) : (s.notify o st b).serve = s.serve := by
  rw [State.notify_eq]
@[simp] theorem State.notify_nv (s : State) (o st : Nat) (b : List Byte) : (s.notify o st b).nv = s.nv := by
  rw [State.notify_eq]
@[simp] theorem State.notify_mgmt (s : State) (o st : Nat) (b : List Byte) : (s.notify o st b).mgmt = s.mgmt := by
  rw [State.notify_eq]
@[simp] theorem State.notify_cal (s : State) (o st : Nat) (b : List Byte) : (s.notify o st b).cal = s.cal := by
  rw [State.notify_eq]
@[simp] theorem State.notify_tap (s : State) (o st : Nat) (b : List Byte) : (s.notify o st b).tap = s.tap := by
  rw [State.notify_eq]
@[simp] theorem State.notify_regRead (s : State) (o st : Nat) (b : List Byte) : (s.notify o st b).regRead = s.regRead := by
  rw [State.notify_eq]
@[simp] theorem State.notify_stk (s : State) (o st : Nat) (b : List Byte) : (s.notify o st b).stk = s.stk := by
  rw [State.notify_eq]
@[simp] theorem State.notify_recov (s : State) (o st : Nat) (b : List Byte) : (s.notify o st b).recov = s.recov := by
  rw [State.notify_eq]
@[simp] theorem State.notify_parcel (s : State) (o st : Nat) (b : List Byte) (p : Pid) : (s.notify o st b).parcel p = s.parcel p := by
  simp only [State.parcel, State.notify_parcels]
@[simp] theorem State.notify_dist (s : State) (o st : Nat) (b : List Byte) (d : Nat) : (s.notify o st b).dist d = s.dist d := by
  simp only [State.dist, State.notify_dists]

@[simp] theorem State.event_pending (s : State) (e : LogEvent) : (s.event e).pending = s.pending := by
  rw [State.event_eq]
@[simp] theorem State.event_free (s : State) (e : LogEvent) : (s.event e).free = s.free := by
  rw [State.event_eq]
@[simp] theorem State.event_core (s : State) (e : LogEvent) : (s.event e).core = s.core := by
  rw [State.event_eq]
@[simp] theorem State.event_boot (s : State) (e : LogEvent) : (s.event e).boot = s.boot := by
  rw [State.event_eq]
@[simp] theorem State.event_clk (s : State) (e : LogEvent) : (s.event e).clk = s.clk := by
  rw [State.event_eq]
@[simp] theorem State.event_time (s : State) (e : LogEvent) : (s.event e).time = s.time := by
  rw [State.event_eq]
@[simp] theorem State.event_pwr (s : State) (e : LogEvent) : (s.event e).pwr = s.pwr := by
  rw [State.event_eq]
@[simp] theorem State.event_cool (s : State) (e : LogEvent) : (s.event e).cool = s.cool := by
  rw [State.event_eq]
@[simp] theorem State.event_dists (s : State) (e : LogEvent) : (s.event e).dists = s.dists := by
  rw [State.event_eq]
@[simp] theorem State.event_parcels (s : State) (e : LogEvent) : (s.event e).parcels = s.parcels := by
  rw [State.event_eq]
@[simp] theorem State.event_net (s : State) (e : LogEvent) : (s.event e).net = s.net := by
  rw [State.event_eq]
@[simp] theorem State.event_fab (s : State) (e : LogEvent) : (s.event e).fab = s.fab := by
  rw [State.event_eq]
@[simp] theorem State.event_load (s : State) (e : LogEvent) : (s.event e).load = s.load := by
  rw [State.event_eq]
@[simp] theorem State.event_model (s : State) (e : LogEvent) : (s.event e).model = s.model := by
  rw [State.event_eq]
@[simp] theorem State.event_serve (s : State) (e : LogEvent) : (s.event e).serve = s.serve := by
  rw [State.event_eq]
@[simp] theorem State.event_nv (s : State) (e : LogEvent) : (s.event e).nv = s.nv := by
  rw [State.event_eq]
@[simp] theorem State.event_mgmt (s : State) (e : LogEvent) : (s.event e).mgmt = s.mgmt := by
  rw [State.event_eq]
@[simp] theorem State.event_cal (s : State) (e : LogEvent) : (s.event e).cal = s.cal := by
  rw [State.event_eq]
@[simp] theorem State.event_tap (s : State) (e : LogEvent) : (s.event e).tap = s.tap := by
  rw [State.event_eq]
@[simp] theorem State.event_regRead (s : State) (e : LogEvent) : (s.event e).regRead = s.regRead := by
  rw [State.event_eq]
@[simp] theorem State.event_parcel (s : State) (e : LogEvent) (p : Pid) : (s.event e).parcel p = s.parcel p := by
  simp only [State.parcel, State.event_parcels]
@[simp] theorem State.event_dist (s : State) (e : LogEvent) (d : Nat) : (s.event e).dist d = s.dist d := by
  simp only [State.dist, State.event_dists]

/-! ### Records of the log -/

/-- A record written to the checkpoint region touches the stacks, and its number stands in the list of those written. -/
theorem State.ckptWrite_eq (s : State) (n : Nat) :
    s.ckptWrite n = { s with stk := (s.ckptWrite n).stk, core := { s.core with ckpt := s.core.ckpt ++ [n] } } := rfl

@[simp] theorem length_leBytes : ∀ (n k : Nat), (leBytes n k).length = k
  | _, 0 => rfl
  | n, k + 1 => by simp [leBytes, length_leBytes (n / 256) k]

@[simp] theorem length_storedRecord (bs : List Byte) : (storedRecord bs).length = bs.length + 4 := by simp [storedRecord]

/-- Every byte outside the record's 72 stays. -/
theorem State.byte_ckptWrite (s : State) (n b : Nat) (h : b < ckptAddr n ∨ ckptAddr n + 72 ≤ b) :
    (s.ckptWrite n).stk.byte b = s.stk.byte b := by
  simp only [State.ckptWrite]
  rw [State.byte_stackPut, if_neg]
  simp only [length_storedRecord, rawBody, List.length_append, length_leBytes]
  omega

/-- The record of a step takes the next number; it is acknowledged at once only where it goes to the checkpoint region. -/
theorem State.logRecord_eq (s : State) : s.logRecord = (s.logRecord.1, s.core.logNext, !s.core.depValid) := by
  unfold State.logRecord
  split <;> simp_all

/-- The record of a command touches the core, and the stacks where no deputy is valid. -/
theorem State.logCommand_eq (s : State) (c : CmdIn) :
    s.logCommand c = { s with core := (s.logCommand c).core, stk := (s.logCommand c).stk } := by
  simp only [State.logCommand]
  generalize (if s.needsTrailer c.opcode then s.core.cmdLog ++ [({ ctr := c.ctr, tag := c.tag, reply := [] } : CmdRec)] else s.core.cmdLog) = l
  split <;> rfl

/-! ### Host commands (R576) -/

/-- Without a registry nothing happens. -/
theorem State.hostCmd_unanswered {s : State} (h : s.answers = false) (c : CmdIn) (op : State → CmdOut) : s.hostCmd c op = s := by
  simp [State.hostCmd, h]

/-- A command that carries no trailer is executed. -/
theorem State.hostCmd_open {s : State} {c : CmdIn} (h : s.answers = true) (hn : s.needsTrailer c.opcode = false) (op : State → CmdOut) :
    s.hostCmd c op = s.execute c op := by
  simp [State.hostCmd, h, hn]

/-- A command that passes steps 1 and 2 is executed with its counter taken. -/
theorem State.hostCmd_accepted {s : State} {c : CmdIn} (h : s.answers = true) (hn : s.needsTrailer c.opcode = true)
    (ht : s.tagOk c = true) (hc : s.sec.lastCtr < c.ctr.toNat) (hf : s.floorFails c = false) (op : State → CmdOut) :
    s.hostCmd c op = (s.accepted c).execute c op := by
  simp [State.hostCmd, h, hn, ht, hc, hf]

/-- A command whose floor cannot be written is refused. -/
theorem State.hostCmd_floorFails {s : State} {c : CmdIn} (h : s.answers = true) (hn : s.needsTrailer c.opcode = true)
    (ht : s.tagOk c = true) (hc : s.sec.lastCtr < c.ctr.toNat) (hf : s.floorFails c = true) (op : State → CmdOut) :
    s.hostCmd c op = s.floorBad c := by
  simp [State.hostCmd, h, hn, ht, hc, hf]

/-- A tag that does not verify ends at step 1. -/
theorem State.hostCmd_badTag {s : State} {c : CmdIn} (h : s.answers = true) (hn : s.needsTrailer c.opcode = true)
    (ht : s.tagOk c = false) (op : State → CmdOut) : s.hostCmd c op = s.keyBad c := by
  simp [State.hostCmd, h, hn, ht]

/-- How a command with reserved trailer bytes of 0 ends. -/
theorem State.execute_done {s s1 : State} {c : CmdIn} {op : State → CmdOut} {r : Reply}
    (h : s.needsTrailer c.opcode = false ∨ c.rsv = 0) (ho : op (s.logCommand c) = .done s1 r) :
    s.execute c op = s1.replyUnder s.nv.mkey (s.replyAddr c) c.opcode r := by
  rcases h with h | h <;> simp [State.execute, h, ho]

theorem State.execute_later {s s1 : State} {c : CmdIn} {op : State → CmdOut}
    (h : s.needsTrailer c.opcode = false ∨ c.rsv = 0) (ho : op (s.logCommand c) = .later s1) : s.execute c op = s1 := by
  rcases h with h | h <;> simp [State.execute, h, ho]

theorem State.execute_malformed {s : State} {c : CmdIn} {op : State → CmdOut}
    (h : s.needsTrailer c.opcode = false ∨ c.rsv = 0) (ho : op (s.logCommand c) = .malformed) :
    s.execute c op = s.reply (s.replyAddr c) c.opcode { status := stMalformed } := by
  rcases h with h | h <;> simp [State.execute, h, ho]

theorem State.execute_illegal {s : State} {c : CmdIn} {op : State → CmdOut} {u : Nat}
    (h : s.needsTrailer c.opcode = false ∨ c.rsv = 0) (ho : op (s.logCommand c) = .illegal u) :
    s.execute c op = ({ s with serve := { s.serve with illegal := satAdd 32 s.serve.illegal 1 } }).reply (s.replyAddr c) c.opcode
      { status := stIllegal, unit := u } := by
  rcases h with h | h <;> simp [State.execute, h, ho]

/-- The two checks before a command runs. -/
theorem checked_pass {w l : Bool} (hw : w = true) (hl : l = true) (k : State → CmdOut) (s : State) : checked w l k s = k s := by
  simp [checked, hw, hl]

theorem checked_malformed {w l : Bool} (hw : w = false) (k : State → CmdOut) (s : State) : checked w l k s = .malformed := by
  simp [checked, hw]

theorem checked_illegal {w l : Bool} (hw : w = true) (hl : l = false) (k : State → CmdOut) (s : State) :
    checked w l k s = .illegal 0xFF := by
  simp [checked, hw, hl]

/-- A reply goes out, and is kept with its command's log record. -/
theorem State.reply_eq (s : State) (t : ReplyTo) (opcode : Nat) (r : Reply) :
    s.reply t opcode r = { s with out := (s.reply t opcode r).out, core := (s.reply t opcode r).core } := rfl

theorem State.replyUnder_eq (s : State) (k : Option (BitVec 256)) (t : ReplyTo) (opcode : Nat) (r : Reply) :
    s.replyUnder k t opcode r = { s with out := (s.replyUnder k t opcode r).out, core := (s.replyUnder k t opcode r).core } := rfl

/-! ### Loads, stores and branches of a sweeper (R172, R173, R183, R184) -/

/-- A load is open when it is aligned and lies within what the bank may read. -/
theorem loadCheck_none {ps : ParcelState} {a n al : Nat} (ha : a % al = 0) (hb : a + n ≤ (if ps.swp.fw then 0x600000 else 0x568000)) :
    loadCheck ps a n al = none := by
  unfold loadCheck
  rw [if_neg]
  simp [loadOpen, ha, hb]

theorem loadCheck_bad {ps : ParcelState} {a n al : Nat} (h : a % al ≠ 0 ∨ (if ps.swp.fw then 0x600000 else 0x568000) < a + n) :
    loadCheck ps a n al = some 2 := by
  unfold loadCheck
  rw [if_pos]
  rcases h with h | h <;> simp [loadOpen, h]

/-- An unread branch condition goes to the next instruction. -/
theorem branchOp_done {s : State} {p : Pid} {o : BrOps} (c : Word → Word → Bool) (h : s.canIssue p 0 = true) (hr : o.rsv = 0)
    (ho : o.off.toNat % 8 = 0) :
    branchOp c p o s = .next (s.afterIssue p 0 (s.parcel p) (if c ((s.parcel p).gReg o.rs1.toNat) ((s.parcel p).gReg o.rs2.toNat) then
      brTarget (s.parcel p) o else (s.parcel p).next)) :=
  issueAt_done h (by simp [hr, ho]) rfl

/-! ### Units (R205) -/

/-- A unit instruction that finds its token counter below 255 and room in its queue is taken in. -/
theorem issueUnit_taken {ps : ParcelState} {c : Nat} {tk : BitVec 4} {room : Bool} (push : ParcelState → Nat → ParcelState)
    (ht : ps.token tk.toNat < 255) (hr : room = true) :
    ps.issueUnit c tk room push = .done (push (ps.unitTaken c tk) ps.nextId) ps.next := by
  simp [ParcelState.issueUnit, ParcelState.unitTaken, hr, Nat.not_le.2 ht]

theorem issueUnit_full {ps : ParcelState} {c : Nat} {tk : BitVec 4} {room : Bool} (push : ParcelState → Nat → ParcelState)
    (h : 255 ≤ ps.token tk.toNat ∨ room = false) : ps.issueUnit c tk room push = .full := by
  rcases h with h | h <;> simp [ParcelState.issueUnit, h]

/-- A full queue or an unmet dependency counts a blocked cycle and nothing else. -/
theorem issueAt_full {s : State} {p : Pid} {c : Nat} {ill : Bool} {k : ParcelState → Issue} (h : s.atInstr p = true) (hi : ill = false)
    (hk : k (s.parcel p) = .full) : s.issueAt p c ill k = .next (s.setParcel p (s.parcel p).stallQueue) := by
  obtain ⟨h1, h2, h3⟩ := (atInstr_iff s p).1 h
  simp [State.issueAt, State.modParcel, ParcelState.issue, h1, h2, h3, hi, hk]

theorem issueAt_dep {s : State} {p : Pid} {c : Nat} {ill : Bool} {k : ParcelState → Issue} (h : s.atInstr p = true) (hi : ill = false)
    (hk : k (s.parcel p) = .dep) : s.issueAt p c ill k = .next (s.setParcel p (s.parcel p).stallDep) := by
  obtain ⟨h1, h2, h3⟩ := (atInstr_iff s p).1 h
  simp [State.issueAt, State.modParcel, ParcelState.issue, h1, h2, h3, hi, hk]

/-! ### Events in a queue -/

/-- The first element that meets a condition, where one does. -/
theorem takeFirst_app {α : Type} {p : α → Bool} {e : α} (he : p e = true) : ∀ (l r : List α), l.all (fun x => !p x) = true →
    takeFirst p (l ++ e :: r) = some (e, l ++ r)
  | [], r, _ => by simp [takeFirst, he]
  | x :: l, r, h => by
    simp only [List.all_cons, Bool.and_eq_true, Bool.not_eq_true'] at h
    simp [takeFirst, h.1, takeFirst_app he l r (by simpa using h.2)]

/-- None where none does. -/
theorem takeFirst_none {α : Type} {p : α → Bool} : ∀ {l : List α}, l.all (fun x => !p x) = true → takeFirst p l = none
  | [], _ => rfl
  | x :: l, h => by
    simp only [List.all_cons, Bool.and_eq_true, Bool.not_eq_true'] at h
    simp [takeFirst, h.1, takeFirst_none (l := l) (by simpa using h.2)]

end Sys2Proof.Machine
end

