-- ==== Sys2Proof/Laws/PerInstr.lean ====
section
/-!
SUPPORT. Statements about every command as syntax, one lemma for each constructor: a command has at most one binary form, the word of a
Plat instruction or the operand bytes of a host command.
-/
namespace Sys2Proof.Laws.OneForm

open Sys2Proof.Machine

/-- The command has no word of Plat, or no operand bytes of a host command. -/
def Statement (i : Instr) : Prop := platEncode i = none ∨ hostEncode i = none

theorem powerOn (vin : Nat) (sealOk : Bool) : Statement (.powerOn vin sealOk) := .inl rfl
theorem inputRemoved : Statement (.inputRemoved) := .inl rfl
theorem overvoltage : Statement (.overvoltage) := .inl rfl
theorem undervolt (vin : Nat) : Statement (.undervolt vin) := .inl rfl
theorem reversedPolarity : Statement (.reversedPolarity) := .inl rfl
theorem fastLimit (iin : Nat) : Statement (.fastLimit iin) := .inl rfl
theorem strapChange (air : Bool) : Statement (.strapChange air) := .inl rfl
theorem bootFlowEstablished (probeFail fwBad announced : List DistId) : Statement (.bootFlowEstablished probeFail fwBad announced) := .inl rfl
theorem bootFlowTimeout : Statement (.bootFlowTimeout) := .inl rfl
theorem electionWindowClose : Statement (.electionWindowClose) := .inl rfl
theorem bootStep5End (late : List DistId) : Statement (.bootStep5End late) := .inl rfl
theorem bootComplete (parcelFail : List Pid) (benchBad : List DistId) (stacksFailed : List StackId) : Statement (.bootComplete parcelFail benchBad stacksFailed) := .inl rfl
theorem bootStatus : Statement (.bootStatus) := .inl rfl
theorem engineReset (m : MgmtHdr) : Statement (.engineReset m) := .inl rfl
theorem registryHeartbeat : Statement (.registryHeartbeat) := .inl rfl
theorem registryTakeover (reported : Bool) : Statement (.registryTakeover reported) := .inl rfl
theorem deputySnapshotDone : Statement (.deputySnapshotDone) := .inl rfl
theorem deputyLost : Statement (.deputyLost) := .inl rfl
theorem deputyAck (record : Nat) : Statement (.deputyAck record) := .inl rfl
theorem wardenCommand (d : DistId) (source : CmdSource) (epoch : BitVec 32) : Statement (.wardenCommand d source epoch) := .inl rfl
theorem wardenHeartbeat (d : DistId) : Statement (.wardenHeartbeat d) := .inl rfl
theorem wardenLost (d : DistId) (coreFailed : Bool) : Statement (.wardenLost d coreFailed) := .inl rfl
theorem stop (p : Pid) : Statement (.stop p) := .inl rfl
theorem resume (p : Pid) : Statement (.resume p) := .inl rfl
theorem bollard (p : Pid) (event : BitVec 16) : Statement (.bollard p event) := .inl rfl
theorem wardenSetRation (p : Pid) (v : Word) : Statement (.wardenSetRation p v) := .inl rfl
theorem setVoltage (p : Pid) (code : BitVec 6) : Statement (.setVoltage p code) := .inl rfl
theorem lotMapWrite (p : Pid) (hi : Bool) (v : Word) : Statement (.lotMapWrite p hi v) := .inl rfl
theorem lotMapArm (p : Pid) (arm : Bool) : Statement (.lotMapArm p arm) := .inl rfl
theorem lotMapBadClear (p : Pid) : Statement (.lotMapBadClear p) := .inl rfl
theorem lotRemapWrite (p : Pid) (l : LotId) (col : Bool) (n : Fin 4) (v : Word) : Statement (.lotRemapWrite p l col n v) := .inl rfl
theorem cpCfgWrite (p : Pid) (l : LotId) (v : Word) : Statement (.cpCfgWrite p l v) := .inl rfl
theorem dmeExcClear (p : Pid) : Statement (.dmeExcClear p) := .inl rfl
theorem swpExcClear (p : Pid) : Statement (.swpExcClear p) := .inl rfl
theorem suspectClear (d : DistId) (bits : BitVec 16) : Statement (.suspectClear d bits) := .inl rfl
theorem paramWrite (p : Pid) (n : Fin 16) (v : Word) : Statement (.paramWrite p n v) := .inl rfl
theorem classWrite (p : Pid) (n : Fin 4) (v : Word) : Statement (.classWrite p n v) := .inl rfl
theorem kvCfgWrite (p : Pid) (v : Word) : Statement (.kvCfgWrite p v) := .inl rfl
theorem stackWindowWrite (p : Pid) (w : Fin 16) (r : Fin 3) (v : Word) : Statement (.stackWindowWrite p w r v) := .inl rfl
theorem detourTableWrite (d : DistId) (n : Fin 102) (v : Word) : Statement (.detourTableWrite d n v) := .inl rfl
theorem easeWrite (hi : Bool) (v : Word) : Statement (.easeWrite hi v) := .inl rfl
theorem counterReadClear (addr : Nat) : Statement (.counterReadClear addr) := .inl rfl
theorem misalignedAccess (addr : Nat) (bytes : Nat) (write : Bool) : Statement (.misalignedAccess addr bytes write) := .inl rfl
theorem unbackedAccess (addr : Nat) (write : Bool) : Statement (.unbackedAccess addr write) := .inl rfl
theorem registerWrite (addr : Nat) (v : Word) : Statement (.registerWrite addr v) := .inl rfl
theorem add (p : Pid) (o : AluOps) : Statement (.add p o) := .inr rfl
theorem sub (p : Pid) (o : AluOps) : Statement (.sub p o) := .inr rfl
theorem and (p : Pid) (o : AluOps) : Statement (.and p o) := .inr rfl
theorem or (p : Pid) (o : AluOps) : Statement (.or p o) := .inr rfl
theorem xor (p : Pid) (o : AluOps) : Statement (.xor p o) := .inr rfl
theorem sll (p : Pid) (o : AluOps) : Statement (.sll p o) := .inr rfl
theorem srl (p : Pid) (o : AluOps) : Statement (.srl p o) := .inr rfl
theorem sra (p : Pid) (o : AluOps) : Statement (.sra p o) := .inr rfl
theorem slt (p : Pid) (o : AluOps) : Statement (.slt p o) := .inr rfl
theorem sltu (p : Pid) (o : AluOps) : Statement (.sltu p o) := .inr rfl
theorem min (p : Pid) (o : AluOps) : Statement (.min p o) := .inr rfl
theorem max (p : Pid) (o : AluOps) : Statement (.max p o) := .inr rfl
theorem mul (p : Pid) (o : AluOps) : Statement (.mul p o) := .inr rfl
theorem mulh (p : Pid) (o : AluOps) : Statement (.mulh p o) := .inr rfl
theorem div (p : Pid) (o : AluOps) : Statement (.div p o) := .inr rfl
theorem divu (p : Pid) (o : AluOps) : Statement (.divu p o) := .inr rfl
theorem rem (p : Pid) (o : AluOps) : Statement (.rem p o) := .inr rfl
theorem remu (p : Pid) (o : AluOps) : Statement (.remu p o) := .inr rfl
theorem clz (p : Pid) (o : AluOps) : Statement (.clz p o) := .inr rfl
theorem popc (p : Pid) (o : AluOps) : Statement (.popc p o) := .inr rfl
theorem li (p : Pid) (o : ImmOps) : Statement (.li p o) := .inr rfl
theorem lhi (p : Pid) (o : ImmOps) : Statement (.lhi p o) := .inr rfl
theorem ld8s (p : Pid) (o : MemOps) : Statement (.ld8s p o) := .inr rfl
theorem ld8u (p : Pid) (o : MemOps) : Statement (.ld8u p o) := .inr rfl
theorem ld16s (p : Pid) (o : MemOps) : Statement (.ld16s p o) := .inr rfl
theorem ld16u (p : Pid) (o : MemOps) : Statement (.ld16u p o) := .inr rfl
theorem ld32s (p : Pid) (o : MemOps) : Statement (.ld32s p o) := .inr rfl
theorem ld32u (p : Pid) (o : MemOps) : Statement (.ld32u p o) := .inr rfl
theorem ld64 (p : Pid) (o : MemOps) : Statement (.ld64 p o) := .inr rfl
theorem st8 (p : Pid) (o : MemOps) : Statement (.st8 p o) := .inr rfl
theorem st16 (p : Pid) (o : MemOps) : Statement (.st16 p o) := .inr rfl
theorem st32 (p : Pid) (o : MemOps) : Statement (.st32 p o) := .inr rfl
theorem st64 (p : Pid) (o : MemOps) : Statement (.st64 p o) := .inr rfl
theorem vld (p : Pid) (o : MemOps) : Statement (.vld p o) := .inr rfl
theorem vst (p : Pid) (o : MemOps) : Statement (.vst p o) := .inr rfl
theorem beq (p : Pid) (o : BrOps) : Statement (.beq p o) := .inr rfl
theorem bne (p : Pid) (o : BrOps) : Statement (.bne p o) := .inr rfl
theorem blt (p : Pid) (o : BrOps) : Statement (.blt p o) := .inr rfl
theorem bge (p : Pid) (o : BrOps) : Statement (.bge p o) := .inr rfl
theorem bltu (p : Pid) (o : BrOps) : Statement (.bltu p o) := .inr rfl
theorem bgeu (p : Pid) (o : BrOps) : Statement (.bgeu p o) := .inr rfl
theorem jal (p : Pid) (o : BrOps) : Statement (.jal p o) := .inr rfl
theorem jalr (p : Pid) (o : BrOps) : Statement (.jalr p o) := .inr rfl
theorem vadd (p : Pid) (o : VecOps) : Statement (.vadd p o) := .inr rfl
theorem vsub (p : Pid) (o : VecOps) : Statement (.vsub p o) := .inr rfl
theorem vmul (p : Pid) (o : VecOps) : Statement (.vmul p o) := .inr rfl
theorem vmin (p : Pid) (o : VecOps) : Statement (.vmin p o) := .inr rfl
theorem vmax (p : Pid) (o : VecOps) : Statement (.vmax p o) := .inr rfl
theorem vdiv (p : Pid) (o : VecOps) : Statement (.vdiv p o) := .inr rfl
theorem vfma (p : Pid) (o : VecOps) : Statement (.vfma p o) := .inr rfl
theorem vexp (p : Pid) (o : VecOps) : Statement (.vexp p o) := .inr rfl
theorem vsqrt (p : Pid) (o : VecOps) : Statement (.vsqrt p o) := .inr rfl
theorem vrmax (p : Pid) (o : VecOps) : Statement (.vrmax p o) := .inr rfl
theorem vrsum (p : Pid) (o : VecOps) : Statement (.vrsum p o) := .inr rfl
theorem vmov (p : Pid) (o : VecOps) : Statement (.vmov p o) := .inr rfl
theorem cvt (p : Pid) (o : CvtOps) : Statement (.cvt p o) := .inr rfl
theorem smax (p : Pid) (o : SmpOps) : Statement (.smax p o) := .inr rfl
theorem stopk (p : Pid) (o : SmpOps) : Statement (.stopk p o) := .inr rfl
theorem scum (p : Pid) (o : SmpOps) : Statement (.scum p o) := .inr rfl
theorem sword (p : Pid) (o : SmpOps) : Statement (.sword p o) := .inr rfl
theorem spen (p : Pid) (o : SmpOps) : Statement (.spen p o) := .inr rfl
theorem nop (p : Pid) (o : SysOps) : Statement (.nop p o) := .inr rfl
theorem csrr (p : Pid) (o : SysOps) : Statement (.csrr p o) := .inr rfl
theorem csrw (p : Pid) (o : SysOps) : Statement (.csrw p o) := .inr rfl
theorem evwait (p : Pid) (o : SysOps) : Statement (.evwait p o) := .inr rfl
theorem evpop (p : Pid) (o : SysOps) : Statement (.evpop p o) := .inr rfl
theorem evpost (p : Pid) (o : SysOps) : Statement (.evpost p o) := .inr rfl
theorem fence (p : Pid) (o : SysOps) : Statement (.fence p o) := .inr rfl
theorem fret (p : Pid) (o : SysOps) : Statement (.fret p o) := .inr rfl
theorem firmwareEventTake (p : Pid) : Statement (.firmwareEventTake p) := .inl rfl
theorem lmv (p : Pid) (o : LmvOps) : Statement (.lmv p o) := .inr rfl
theorem lmva (p : Pid) (o : LmvOps) : Statement (.lmva p o) := .inr rfl
theorem stagingFill (p : Pid) : Statement (.stagingFill p) := .inl rfl
theorem lmvStart (p : Pid) (l : LotId) (disturb : List (Nat × Nat × Int)) : Statement (.lmvStart p l disturb) := .inl rfl
theorem lmvDrain (p : Pid) : Statement (.lmvDrain p) := .inl rfl
theorem flagLimitReport (p : Pid) (l : LotId) : Statement (.flagLimitReport p l) := .inl rfl
theorem driftFit (p : Pid) (l : LotId) (j : Fin 8) : Statement (.driftFit p l j) := .inl rfl
theorem recomputeRoutine (p : Pid) : Statement (.recomputeRoutine p) := .inl rfl
theorem dmm (p : Pid) (o : DmmOps) : Statement (.dmm p o) := .inr rfl
theorem dmg (p : Pid) (o : DmgOps) : Statement (.dmg p o) := .inr rfl
theorem ats (p : Pid) (o : AtsOps) : Statement (.ats p o) := .inr rfl
theorem atv (p : Pid) (o : AtvOps) : Statement (.atv p o) := .inr rfl
theorem atx (p : Pid) (o : AtxOps) : Statement (.atx p o) := .inr rfl
theorem tileFetch (p : Pid) : Statement (.tileFetch p) := .inl rfl
theorem opqFill (p : Pid) : Statement (.opqFill p) := .inl rfl
theorem dmeDispatch (p : Pid) : Statement (.dmeDispatch p) := .inl rfl
theorem dmmCompute (p : Pid) : Statement (.dmmCompute p) := .inl rfl
theorem kap (p : Pid) (o : KapOps) : Statement (.kap p o) := .inr rfl
theorem kapSend (p : Pid) : Statement (.kapSend p) := .inl rfl
theorem appendAccept (p : Pid) (flit : Nat) : Statement (.appendAccept p flit) := .inl rfl
theorem kapAck (p : Pid) (flit : Nat) : Statement (.kapAck p flit) := .inl rfl
theorem ldq (p : Pid) (o : QueOps) : Statement (.ldq p o) := .inr rfl
theorem stq (p : Pid) (o : QueOps) : Statement (.stq p o) := .inr rfl
theorem ldqRun (p : Pid) : Statement (.ldqRun p) := .inl rfl
theorem stqRun (p : Pid) : Statement (.stqRun p) := .inl rfl
theorem stackReadRequest (k : StackId) (flit : Nat) (erased : List StackId) : Statement (.stackReadRequest k flit erased) := .inl rfl
theorem stackReadResponse (p : Pid) (flit : Nat) : Statement (.stackReadResponse p flit) := .inl rfl
theorem stackWrite (k : StackId) (flit : Nat) : Statement (.stackWrite k flit) := .inl rfl
theorem ackCount (p : Pid) (flit : Nat) : Statement (.ackCount p flit) := .inl rfl
theorem poolCreditReturn (p : Pid) (k : StackId) : Statement (.poolCreditReturn p k) := .inl rfl
theorem waitq (p : Pid) (o : WaitOps) : Statement (.waitq p o) := .inr rfl
theorem snd (p : Pid) (o : SndOps) : Statement (.snd p o) := .inr rfl
theorem rcv (p : Pid) (o : RcvOps) : Statement (.rcv p o) := .inr rfl
theorem mcs (p : Pid) (o : McsOps) : Statement (.mcs p o) := .inr rfl
theorem hint (p : Pid) (o : HintOps) : Statement (.hint p o) := .inr rfl
theorem hintExpiry (p : Pid) : Statement (.hintExpiry p) := .inl rfl
theorem sndStart (p : Pid) : Statement (.sndStart p) := .inl rfl
theorem rcvPost (p : Pid) : Statement (.rcvPost p) := .inl rfl
theorem recordReceive (p : Pid) (flit : Nat) : Statement (.recordReceive p flit) := .inl rfl
theorem flitArrival (flit : Nat) (uncorrectable : Bool) : Statement (.flitArrival flit uncorrectable) := .inl rfl
theorem frameBoundary : Statement (.frameBoundary) := .inl rfl
theorem holeSense (d : DistId) : Statement (.holeSense d) := .inl rfl
theorem passStart (p : Pid) (payload : BitVec 56) : Statement (.passStart p payload) := .inl rfl
theorem kvPlan (p : Pid) (step : BitVec 32) : Statement (.kvPlan p step) := .inl rfl
theorem summaryReceive (p : Pid) (flit : Nat) : Statement (.summaryReceive p flit) := .inl rfl
theorem rdmaWrite (pkt : RcPkt) (off : Nat) (bytes : List Byte) : Statement (.rdmaWrite pkt off bytes) := .inl rfl
theorem rdmaRead (pkt : RcPkt) (off len : Nat) : Statement (.rdmaRead pkt off len) := .inl rfl
theorem unsupportedRdmaOp (ring : Fin 128) : Statement (.unsupportedRdmaOp ring) := .inl rfl
theorem rcRetryExhausted (ring : Fin 128) : Statement (.rcRetryExhausted ring) := .inl rfl
theorem cnpReceive (ring : Fin 128) : Statement (.cnpReceive ring) := .inl rfl
theorem rateRecovery (ring : Fin 128) : Statement (.rateRecovery ring) := .inl rfl
theorem admission : Statement (.admission) := .inl rfl
theorem cancelScan : Statement (.cancelScan) := .inl rfl
theorem waitingDeadline : Statement (.waitingDeadline) := .inl rfl
theorem stepSend : Statement (.stepSend) := .inl rfl
theorem sample (step : BitVec 32) : Statement (.sample step) := .inl rfl
theorem stepDoneSend (step : BitVec 32) : Statement (.stepDoneSend step) := .inl rfl
theorem commitDecision (step : BitVec 32) : Statement (.commitDecision step) := .inl rfl
theorem commit (step : BitVec 32) : Statement (.commit step) := .inl rfl
theorem commitApply (step : BitVec 32) : Statement (.commitApply step) := .inl rfl
theorem stepReplay (step : BitVec 32) : Statement (.stepReplay step) := .inl rfl
theorem stepAbandon (step : BitVec 32) : Statement (.stepAbandon step) := .inl rfl
theorem drainLimitExpiry : Statement (.drainLimitExpiry) := .inl rfl
theorem dataMessage (m : AveIn) : Statement (.dataMessage m) := .inl rfl
theorem ack (m : AveIn) : Statement (.ack m) := .inl rfl
theorem ackSend (peer : BitVec 14) : Statement (.ackSend peer) := .inl rfl
theorem load (m : AveIn) : Statement (.load m) := .inl rfl
theorem loadTimeout : Statement (.loadTimeout) := .inl rfl
theorem step (m : AveIn) : Statement (.step m) := .inl rfl
theorem stepDone (m : AveIn) (b : StepDoneBody) : Statement (.stepDone m b) := .inl rfl
theorem commitMessage (m : AveIn) (lens : List (Nat × Nat)) : Statement (.commitMessage m lens) := .inl rfl
theorem mgmt (m : AveIn) (src : Nat) : Statement (.mgmt m src) := .inl rfl
theorem reassemblyTimeout (xid : BitVec 64) (src : Nat) : Statement (.reassemblyTimeout xid src) := .inl rfl
theorem probe (m : AveIn) : Statement (.probe m) := .inl rfl
theorem avenueV1Message (m : AveV1In) : Statement (.avenueV1Message m) := .inl rfl
theorem messageClose (port : PortId) : Statement (.messageClose port) := .inl rfl
theorem retransmit (peer : BitVec 14) (mseq : BitVec 32) : Statement (.retransmit peer mseq) := .inl rfl
theorem pauseSpill (port : PortId) : Statement (.pauseSpill port) := .inl rfl
theorem linkDown (link : Fin 128) : Statement (.linkDown link) := .inl rfl
theorem linkUp (link : Fin 128) (pol : BitVec 8) (eyes : List (BitVec 8)) : Statement (.linkUp link pol eyes) := .inl rfl
theorem portLost (port : PortId) : Statement (.portLost port) := .inl rfl
theorem transceiverInsert (port : PortId) (laneBad : BitVec 8) : Statement (.transceiverInsert port laneBad) := .inl rfl
theorem eyeMeasure (port : PortId) (eyes : List (BitVec 8)) : Statement (.eyeMeasure port eyes) := .inl rfl
theorem ptpMessage (o : PtpOps) : Statement (.ptpMessage o) := .inl rfl
theorem ptpSyncLoss : Statement (.ptpSyncLoss) := .inl rfl
theorem meterWindow (p : Pid) (avg : Nat) : Statement (.meterWindow p avg) := .inl rfl
theorem capLoop (p1ms pmax vin iin : Nat) : Statement (.capLoop p1ms pmax vin iin) := .inl rfl
theorem energySample (vin iin : Nat) : Statement (.energySample vin iin) := .inl rfl
theorem feederTrip (d : DistId) : Statement (.feederTrip d) := .inl rfl
theorem phaseLost (p : Pid) (phase : Fin 5) : Statement (.phaseLost p phase) := .inl rfl
theorem regulatorFault (p : Pid) (atLimit : Bool) : Statement (.regulatorFault p atLimit) := .inl rfl
theorem padCheck (d : DistId) (excess : List Int) : Statement (.padCheck d excess) := .inl rfl
theorem engineSetState (m : MgmtHdr) (target : BitVec 8) (drainMs : BitVec 32) : Statement (.engineSetState m target drainMs) := .inl rfl
theorem districtSetState (m : MgmtHdr) (district target : BitVec 8) : Statement (.districtSetState m district target) := .inl rfl
theorem switchOnTest (d : DistId) (probeOk : Bool) : Statement (.switchOnTest d probeOk) := .inl rfl
theorem switchOnTimeout (d : DistId) : Statement (.switchOnTimeout d) := .inl rfl
theorem reserveRelease (d : DistId) : Statement (.reserveRelease d) := .inl rfl
theorem switchOnComplete (d : DistId) : Statement (.switchOnComplete d) := .inl rfl
theorem setClockMode (m : MgmtHdr) (district mode : BitVec 8) : Statement (.setClockMode m district mode) := .inl rfl
theorem setRation (m : MgmtHdr) (district : BitVec 8) (parcel ration : BitVec 16) : Statement (.setRation m district parcel ration) := .inl rfl
theorem setCap (m : MgmtHdr) (cap : BitVec 32) : Statement (.setCap m cap) := .inl rfl
theorem setValve (m : MgmtHdr) (setpoint port : BitVec 16) (dest : BitVec 128) : Statement (.setValve m setpoint port dest) := .inl rfl
theorem modelLoad (m : MgmtHdr) (o : LoadOps) : Statement (.modelLoad m o) := .inl rfl
theorem lotProgramStart (p : Pid) (l : LotId) : Statement (.lotProgramStart p l) := .inl rfl
theorem lotProgramDone (p : Pid) (l : LotId) (fails : List SiteFail) : Statement (.lotProgramDone p l fails) := .inl rfl
theorem loadDone : Statement (.loadDone) := .inl rfl
theorem adapterPlace (slot : Fin 16) : Statement (.adapterPlace slot) := .inl rfl
theorem modelUnload (m : MgmtHdr) (kind slot flags : BitVec 8) : Statement (.modelUnload m kind slot flags) := .inl rfl
theorem layerSetResidency (m : MgmtHdr) (layer : BitVec 16) (mode : BitVec 8) : Statement (.layerSetResidency m layer mode) := .inl rfl
theorem rewrite (p : Pid) (l : LotId) : Statement (.rewrite p l) := .inl rfl
theorem backgroundBeat (p : Pid) (l : LotId) : Statement (.backgroundBeat p l) := .inl rfl
theorem traverse (m : MgmtHdr) (scope district : BitVec 8) (parcel : BitVec 16) (lot port : BitVec 8) : Statement (.traverse m scope district parcel lot port) := .inl rfl
theorem traverseDone (id : Nat) (r : TravResult) : Statement (.traverseDone id r) := .inl rfl
theorem residCheck (d : DistId) : Statement (.residCheck d) := .inl rfl
theorem prefixRelease (m : MgmtHdr) (handle : Word) : Statement (.prefixRelease m handle) := .inl rfl
theorem quote (m : MgmtHdr) (challenge : BitVec 256) (flags : BitVec 8) : Statement (.quote m challenge flags) := .inl rfl
theorem fabricSetConfig (m : MgmtHdr) (o : FabricOps) : Statement (.fabricSetConfig m o) := .inl rfl
theorem ringBind (m : MgmtHdr) (o : BindOps) : Statement (.ringBind m o) := .inl rfl
theorem ownerSet (m : MgmtHdr) (key : BitVec 512) : Statement (.ownerSet m key) := .inl rfl
theorem mgmtKey (m : MgmtHdr) (cipher : List Byte) (signature : BitVec 512) : Statement (.mgmtKey m cipher signature) := .inl rfl
theorem trustSet (m : MgmtHdr) (action : BitVec 8) (body : BitVec 512) : Statement (.trustSet m action body) := .inl rfl
theorem firmwareUpdate (m : MgmtHdr) (off : BitVec 32) (last : BitVec 8) (data : List Byte) : Statement (.firmwareUpdate m off last data) := .inl rfl
theorem regRead (m : MgmtHdr) (addr : BitVec 64) (count : BitVec 16) (mode : BitVec 8) : Statement (.regRead m addr count mode) := .inl rfl
theorem firmwareRcSweep (d : Option DistId) : Statement (.firmwareRcSweep d) := .inl rfl
theorem refInputFail (ref1 : Bool) : Statement (.refInputFail ref1) := .inl rfl
theorem refInputGood (ref1 : Bool) : Statement (.refInputGood ref1) := .inl rfl
theorem nodeLock (d : DistId) : Statement (.nodeLock d) := .inl rfl
theorem meshLockFail (d : DistId) : Statement (.meshLockFail d) := .inl rfl
theorem nodeFail (d : DistId) : Statement (.nodeFail d) := .inl rfl
theorem portOscFail (port : PortId) : Statement (.portOscFail port) := .inl rfl
theorem sensorSample (d : DistId) (a b : SiteReadings) (parcels : List (Fin 144 × Reading)) : Statement (.sensorSample d a b parcels) := .inl rfl
theorem thermalStep (d : DistId) : Statement (.thermalStep d) := .inl rfl
theorem tempDisagree (place : SensorPlace) (disagree : Bool) : Statement (.tempDisagree place disagree) := .inl rfl
theorem flowUpdate (f : FlowReadings) (t : CoolReadings) : Statement (.flowUpdate f t) := .inl rfl
theorem flowNotice : Statement (.flowNotice) := .inl rfl
theorem flowFail : Statement (.flowFail) := .inl rfl
theorem switchFail : Statement (.switchFail) := .inl rfl
theorem coolantLost : Statement (.coolantLost) := .inl rfl
theorem coolantTrip : Statement (.coolantTrip) := .inl rfl
theorem flowReturn : Statement (.flowReturn) := .inl rfl
theorem reversedFlow : Statement (.reversedFlow) := .inl rfl
theorem reversedClear : Statement (.reversedClear) := .inl rfl
theorem inletRange (outside : Bool) : Statement (.inletRange outside) := .inl rfl
theorem leak (open_ : Bool) : Statement (.leak open_) := .inl rfl
theorem valveSat (saturated : Bool) : Statement (.valveSat saturated) := .inl rfl
theorem forecastCompute (avg1s rowsWaiting rowsRun edge : Nat) : Statement (.forecastCompute avg1s rowsWaiting rowsRun edge) := .inl rfl
theorem forecastMessage : Statement (.forecastMessage) := .inl rfl
theorem stackLost (k : StackId) (routeOnly : Bool) : Statement (.stackLost k routeOnly) := .inl rfl
theorem scrub (addr : Nat) (bad : List StackId) : Statement (.scrub addr bad) := .inl rfl
theorem stackRebuildDone (k : StackId) : Statement (.stackRebuildDone k) := .inl rfl
theorem coverBringIn (d : DistId) : Statement (.coverBringIn d) := .inl rfl
theorem parcelReplaced (p : Pid) : Statement (.parcelReplaced p) := .inl rfl
theorem districtRestored (d spare : DistId) : Statement (.districtRestored d spare) := .inl rfl
theorem bypass (tdi : Bool) : Statement (.bypass tdi) := .inl rfl
theorem idcode : Statement (.idcode) := .inl rfl
theorem samplePreload (bits : List Bool) : Statement (.samplePreload bits) := .inl rfl
theorem extest : Statement (.extest) := .inl rfl
theorem intest : Statement (.intest) := .inl rfl
theorem tapChallenge : Statement (.tapChallenge) := .inl rfl
theorem tapUnlock (cert sig : List Byte) : Statement (.tapUnlock cert sig) := .inl rfl
theorem tapReset : Statement (.tapReset) := .inl rfl
theorem districtTransitionEnd (d : DistId) : Statement (.districtTransitionEnd d) := .inl rfl
theorem creditReturn (p : Pid) (outPort : Fin 5) (vc : Fin 6) (leg : Fin 4) : Statement (.creditReturn p outPort vc leg) := .inl rfl
theorem rcAck (ring : Fin 128) (psn : Nat) (fatalNak : Bool) : Statement (.rcAck ring psn fatalNak) := .inl rfl
theorem rcAckTimeout (ring : Fin 128) : Statement (.rcAckTimeout ring) := .inl rfl
theorem remotePause (port : PortId) (pause : Bool) : Statement (.remotePause port pause) := .inl rfl

end Sys2Proof.Laws.OneForm
end

