-- ==== Sys2Proof/Laws/Plat.lean ====
section
/-!
SUPPORT. Fields packed into a word come back out of it: the laws of append and extract, one lemma for each layout of Plat (06 R180 to R190;
07 R206 to R233).
-/
namespace Sys2Proof.Machine

theorem extract_append_low {m n : Nat} (x : BitVec m) (y : BitVec n) (s l : Nat) (h : s + l ≤ n) :
    (x ++ y).extractLsb' s l = y.extractLsb' s l := by
  ext i hi
  simp only [BitVec.getElem_extractLsb', BitVec.getLsbD_append]
  rw [if_pos (by omega)]

theorem extract_append_high {m n : Nat} (x : BitVec m) (y : BitVec n) (s l : Nat) (h : n ≤ s) :
    (x ++ y).extractLsb' s l = x.extractLsb' (s - n) l := by
  ext i hi
  simp only [BitVec.getElem_extractLsb', BitVec.getLsbD_append]
  rw [if_neg (by omega)]
  congr 1; omega

theorem bit_append_low {m n : Nat} (x : BitVec m) (y : BitVec n) (i : Nat) (h : i < n) : (x ++ y).getLsbD i = y.getLsbD i := by
  rw [BitVec.getLsbD_append, if_pos h]

theorem bit_append_high {m n : Nat} (x : BitVec m) (y : BitVec n) (i : Nat) (h : n ≤ i) : (x ++ y).getLsbD i = x.getLsbD (i - n) := by
  rw [BitVec.getLsbD_append, if_neg (by omega)]

theorem extract_whole {n : Nat} (x : BitVec n) : x.extractLsb' 0 n = x := by
  ext i hi; simp

theorem ofBool_bit (b : Bool) : (BitVec.ofBool b).getLsbD 0 = b := by cases b <;> rfl

/-- CLASS, OP and operand bits of a word. -/
theorem platWord_fields (c : BitVec 4) (op : BitVec 6) (b : BitVec 54) :
    (platWord c op b).extractLsb' 60 4 = c ∧ (platWord c op b).extractLsb' 54 6 = op ∧ (platWord c op b).extractLsb' 0 54 = b := by
  refine ⟨?_, ?_, ?_⟩ <;>
    simp (disch := omega) only [platWord, extract_append_low, extract_append_high, Nat.reduceSub, Nat.sub_self, extract_whole]

theorem aluOf_aluBits (o : AluOps) : aluOf (aluBits o) = o := by
  obtain ⟨⟩ := o
  simp (disch := omega) only [aluOf, aluBits, extract_append_low, extract_append_high, bit_append_low, bit_append_high, Nat.reduceSub, Nat.sub_self,
    extract_whole, ofBool_bit]

theorem immOf_immBits (o : ImmOps) : immOf (immBits o) = o := by
  obtain ⟨⟩ := o
  simp (disch := omega) only [immOf, immBits, extract_append_low, extract_append_high, Nat.reduceSub, Nat.sub_self,
    extract_whole]

theorem memOf_memBits (o : MemOps) : memOf (memBits o) = o := by
  obtain ⟨⟩ := o
  simp (disch := omega) only [memOf, memBits, extract_append_low, extract_append_high, Nat.reduceSub, Nat.sub_self,
    extract_whole]

theorem brOf_brBits (o : BrOps) : brOf (brBits o) = o := by
  obtain ⟨⟩ := o
  simp (disch := omega) only [brOf, brBits, extract_append_low, extract_append_high, Nat.reduceSub, Nat.sub_self,
    extract_whole]

theorem vectorOf_vectorBits (o : VecOps) : vectorOf (vectorBits o) = o := by
  obtain ⟨⟩ := o
  simp (disch := omega) only [vectorOf, vectorBits, extract_append_low, extract_append_high, bit_append_low, bit_append_high, Nat.reduceSub, Nat.sub_self,
    extract_whole, ofBool_bit]

theorem cvtOf_cvtBits (o : CvtOps) : cvtOf (cvtBits o) = o := by
  obtain ⟨⟩ := o
  simp (disch := omega) only [cvtOf, cvtBits, extract_append_low, extract_append_high, bit_append_low, bit_append_high, Nat.reduceSub, Nat.sub_self,
    extract_whole, ofBool_bit]

theorem smpOf_smpBits (o : SmpOps) : smpOf (smpBits o) = o := by
  obtain ⟨⟩ := o
  simp (disch := omega) only [smpOf, smpBits, extract_append_low, extract_append_high, Nat.reduceSub, Nat.sub_self,
    extract_whole]

theorem sysOf_sysBits (o : SysOps) : sysOf (sysBits o) = o := by
  obtain ⟨⟩ := o
  simp (disch := omega) only [sysOf, sysBits, extract_append_low, extract_append_high, Nat.reduceSub, Nat.sub_self,
    extract_whole]

theorem lmvOf_lmvBits (o : LmvOps) : lmvOf (lmvBits o) = o := by
  obtain ⟨⟩ := o
  simp (disch := omega) only [lmvOf, lmvBits, extract_append_low, extract_append_high, Nat.reduceSub, Nat.sub_self,
    extract_whole]

theorem dmmOf_dmmBits (o : DmmOps) : dmmOf (dmmBits o) = o := by
  obtain ⟨⟩ := o
  simp (disch := omega) only [dmmOf, dmmBits, extract_append_low, extract_append_high, bit_append_low, bit_append_high, Nat.reduceSub, Nat.sub_self,
    extract_whole, ofBool_bit]

theorem dmgOf_dmgBits (o : DmgOps) : dmgOf (dmgBits o) = o := by
  obtain ⟨⟩ := o
  simp (disch := omega) only [dmgOf, dmgBits, extract_append_low, extract_append_high, bit_append_low, bit_append_high, Nat.reduceSub, Nat.sub_self,
    extract_whole, ofBool_bit]

theorem atsOf_atsBits (o : AtsOps) : atsOf (atsBits o) = o := by
  obtain ⟨⟩ := o
  simp (disch := omega) only [atsOf, atsBits, extract_append_low, extract_append_high, Nat.reduceSub, Nat.sub_self,
    extract_whole]

theorem atvOf_atvBits (o : AtvOps) : atvOf (atvBits o) = o := by
  obtain ⟨⟩ := o
  simp (disch := omega) only [atvOf, atvBits, extract_append_low, extract_append_high, bit_append_low, bit_append_high, Nat.reduceSub, Nat.sub_self,
    extract_whole, ofBool_bit]

theorem atxOf_atxBits (o : AtxOps) : atxOf (atxBits o) = o := by
  obtain ⟨⟩ := o
  simp (disch := omega) only [atxOf, atxBits, extract_append_low, extract_append_high, Nat.reduceSub, Nat.sub_self,
    extract_whole]

theorem kapOf_kapBits (o : KapOps) : kapOf (kapBits o) = o := by
  obtain ⟨⟩ := o
  simp (disch := omega) only [kapOf, kapBits, extract_append_low, extract_append_high, bit_append_low, bit_append_high, Nat.reduceSub, Nat.sub_self,
    extract_whole, ofBool_bit]

theorem queOf_queBits (o : QueOps) : queOf (queBits o) = o := by
  obtain ⟨⟩ := o
  simp (disch := omega) only [queOf, queBits, extract_append_low, extract_append_high, bit_append_low, bit_append_high, Nat.reduceSub, Nat.sub_self,
    extract_whole, ofBool_bit]

theorem waitOf_waitBits (o : WaitOps) : waitOf (waitBits o) = o := by
  obtain ⟨⟩ := o
  simp (disch := omega) only [waitOf, waitBits, extract_append_low, extract_append_high, Nat.reduceSub, Nat.sub_self,
    extract_whole]

theorem sndOf_sndBits (o : SndOps) : sndOf (sndBits o) = o := by
  obtain ⟨⟩ := o
  simp (disch := omega) only [sndOf, sndBits, extract_append_low, extract_append_high, bit_append_low, bit_append_high, Nat.reduceSub, Nat.sub_self,
    extract_whole, ofBool_bit]

theorem rcvOf_rcvBits (o : RcvOps) : rcvOf (rcvBits o) = o := by
  obtain ⟨⟩ := o
  simp (disch := omega) only [rcvOf, rcvBits, extract_append_low, extract_append_high, bit_append_low, bit_append_high, Nat.reduceSub, Nat.sub_self,
    extract_whole, ofBool_bit]

theorem mcsOf_mcsBits (o : McsOps) : mcsOf (mcsBits o) = o := by
  obtain ⟨⟩ := o
  simp (disch := omega) only [mcsOf, mcsBits, extract_append_low, extract_append_high, bit_append_low, bit_append_high, Nat.reduceSub, Nat.sub_self,
    extract_whole, ofBool_bit]

theorem hintOf_hintBits (o : HintOps) : hintOf (hintBits o) = o := by
  obtain ⟨⟩ := o
  simp (disch := omega) only [hintOf, hintBits, extract_append_low, extract_append_high, Nat.reduceSub, Nat.sub_self,
    extract_whole]

end Sys2Proof.Machine
end

