-- ==== Sys2Proof/Tests/Slice0.lean ====
section
/-!
SUPPORT. Tests: ill-formed commands refused; words of Plat; for every statement with hypotheses a state and operands that meet them, clause
by clause; single steps with results worked out from the manual.
-/
namespace Sys2Proof.Tests
open Sys2Proof.Machine
set_option Elab.async false

/-! ### Small states -/

/-- The state that an outcome goes on with. -/
def got (o : Out) : State := match o with | .next t => t | _ => State.reset

/-- Parcel 0 of district 0. -/
def p0 : Pid := { d := 0, p := 0 }

/-- Parcel 1 of district 0, north of parcel 0 or east of it as the grid has it. -/
def p1 : Pid := { d := 0, p := 1 }

/-- An engine of which district 0 is ACTIVE and its parcel 0 is as given. -/
def demo (ps : ParcelState) : State := { dists := [(0, { st := .active, live := true })], parcels := [(0, ps)] }

/-- A parcel out of reset. -/
def awake : ParcelState := { swp := { inReset := false } }

/-- A parcel out of reset with the given scalar registers. -/
def regs (g : Sparse Word) : ParcelState := { swp := { inReset := false, g := g } }

/-- A parcel out of reset that runs its firmware bank. -/
def inFw : ParcelState := { swp := { inReset := false, fw := true } }

/-- An image event and a firmware event. -/
def imageEvent : Word := 0x0100000000000007
/-- An event with bit 63 set. -/
def fwEvent : Word := 0x8000000000000007

/-! ### Ill-formed commands (WellFormed) -/

/-- An Avenue header of zeros. -/
def zeroHdr : AveHdr :=
  { nrec := 0, chm := 0, tp := 0, srcE := 0, dstE := 0, srcP := 0, dstP := 0, fseq := 0, aux := 0, mseq := 0, aux2 := 0 }
/-- A message on link 128, which no engine has. -/
def badLink : AveIn := { link := 128, onMgmt := false, roce := false, hdr := zeroHdr, hcrc := 0, body := [] }
/-- A command's header of zeros. -/
def hdr0 : MgmtHdr := { xid := 0, src := 0, v1 := false, onMgmt := true, ctr := 0, rsv := 0, tag := 0 }
/-- Operands of MODEL_LOAD without envelope and tenants. -/
def load0 : LoadOps := { kind := 0, slot := 0, tenant := 0, ordinal := 0, next := 0, deedDigest := 0, envelope := [], tenants := [] }
/-- Operands of FABRIC_SET_CONFIG without modes. -/
def fabric0 : FabricOps :=
  { engineId := 0, encap := 0, prio := 0, domain := 0, modes := [], ipPrefix := 0, qKey := 0, ip0 := 0, ip1 := 0 }

theorem test_wf_link : (Instr.dataMessage badLink).wf = false ∧ (Instr.ack badLink).wf = false ∧ (Instr.load badLink).wf = false ∧
    (Instr.step badLink).wf = false ∧ (Instr.stepDone badLink { toks := [] }).wf = false ∧
    (Instr.commitMessage badLink []).wf = false ∧ (Instr.mgmt badLink 0).wf = false ∧ (Instr.probe badLink).wf = false := by decide
theorem test_wf_load : (Instr.modelLoad hdr0 load0).wf = false := by decide
theorem test_wf_fabric : (Instr.fabricSetConfig hdr0 fabric0).wf = false := by decide
theorem test_wf_mgmtKey : (Instr.mgmtKey hdr0 [] 0).wf = false := by decide
theorem test_wf_firmware : (Instr.firmwareUpdate hdr0 0 0 (List.replicate 65536 0)).wf = false := by
  simp only [Instr.wf, List.length_replicate]; decide
theorem test_wf_linkUp : (Instr.linkUp 0 0 (List.replicate 9 0)).wf = false := by decide
theorem test_wf_eyes : (Instr.eyeMeasure 0 (List.replicate 9 0)).wf = false := by decide
theorem test_wf_ptp : (Instr.ptpMessage { offset := 0, port := 18 }).wf = false := by decide
theorem test_wf_pads : (Instr.padCheck 0 (List.replicate 15 0)).wf = false := by decide
theorem test_wf_sites : (Instr.lotProgramDone p0 0 [{ row := 1040, col := 0, lp := 0, ln := 0 }]).wf = false := by decide
theorem test_wf_misaligned : (Instr.misalignedAccess 8 8 false).wf = false := by decide

/-! ### Words of Plat, written out from the layouts of R180 to R233 -/

theorem test_word_add : platDecode p0 0x0002C40000000000 = some (.add p0 { rd := 1, rs1 := 12, rs2 := 8, immf := false, rsv := 0, imm := 0 }) := by
  decide +kernel
theorem test_word_li : platDecode p0 0x100A00000000002A = some (.li p0 { rd := 5, rsv := 0, imm := 42 }) := by decide +kernel
theorem test_word_ld64 : platDecode p0 0x2186500000000008 = some (.ld64 p0 { rd := 3, rb := 5, rsv := 0, off := 8 }) := by decide +kernel
theorem test_word_jal : platDecode p0 0x323E000000000010 = some (.jal p0 { rd := 31, rs1 := 0, rs2 := 0, rsv := 0, off := 16 }) := by
  decide +kernel
theorem test_word_vadd : platDecode p0 0x400A660000000000 =
    some (.vadd p0 { vd := 1, vs1 := 2, vs2 := 3, et := 3, sc := false, rs := 0, rd := 0, rsv := 0 }) := by decide +kernel
theorem test_word_csrr : platDecode p0 0x7042001000000000 = some (.csrr p0 { rd := 1, rs := 0, csr := 0x10, rsv := 0 }) := by decide +kernel
theorem test_word_hint : platDecode p0 0xD000032000280000 = some (.hint p0 { rsvHi := 0, draw := 200, dur := 10, rsv := 0 }) := by
  decide +kernel
theorem test_word_reserved : platDecode p0 0xF000000000000000 = none := by decide +kernel

/-! ### The premises of the statements about the whole block -/

/-- A parcel with its regulator on. -/
def powered0 (ph : BitVec 5) : ParcelState := { awake with reg := { on := true, phOk := ph } }
/-- A parcel whose PC is at 0x530000, where the word's last byte is as given. -/
def atWord (b : Byte) : ParcelState := { swp := { inReset := false, pc := 0x530000 }, sram := [(0x530007, b)] }
/-- A running engine on the last root cycle of a window, of an FCLK cycle and of a frame. -/
def lastCycle : State := { core := { st := .serving }, clk := { sync := true, root := 1023, fclk := 4095 } }

theorem wit_rootCycle : State.reset.core.st = .off ∧ lastCycle.core.st ≠ .off ∧ lastCycle.time.slew = 0 ∧ lastCycle.clk.sync = true ∧
    (lastCycle.clk.root + 1) % 1024 = 0 ∧ (lastCycle.clk.fclk + 1) % 4096 = 0 ∧ ((State.reset.dist p0.d.val).st ≠ .active) := by
  decide +kernel
/-- A parcel whose image waits, and one that stands at a word of zeros of a reserved class. -/
def blocked : ParcelState := { swp := { inReset := false, wait := some .fence } }
theorem wit_rootCycleParcel : blocked.blockedByWait = true ∧ awake.blockedByWait = false ∧ (powered0 31).reg.on = true ∧
    clockEdge 3 3 = true ∧ (atWord 0xF0).unlisted p0 [] = true ∧ (atWord 0xF0).swp.exc = false := by decide +kernel
theorem wit_memoriesStayCanonical : State.reset.memWf ∧ ∃ t, step State.reset = .next t :=
  ⟨⟨rfl, rfl, rfl, fun _ h => by cases h⟩, _, rfl⟩
/-- An elected engine in STANDBY without an owner, whose DEBUG_EVER fuse is blown. -/
def unowned : State := { core := { st := .standby, epoch := 1 }, nv := { debugEver := true } }
theorem wit_keysAndFuses : (∃ t, exec (.ownerSet hdr0 5) unowned = .next t) ∧ unowned.nv.debugEver = true ∧
    (got (exec (.ownerSet hdr0 5) unowned)).nv.owner = some 5 := ⟨⟨_, rfl⟩, rfl, by decide +kernel⟩
theorem wit_noticeFrame : ∃ t, exec .reversedFlow unowned = .next t := ⟨_, rfl⟩
theorem wit_platRoundTrip : ∃ w, platEncode (.hint p0 { rsvHi := 255, draw := 4095, dur := 65535, rsv := 0 }) = some (p0, w) := ⟨_, rfl⟩
theorem wit_hostRoundTrip : (Instr.setCap hdr0 0xFFFFFFFF).wf = true ∧ ∃ x, hostEncode (.setCap hdr0 0xFFFFFFFF) = some x :=
  ⟨rfl, _, rfl⟩
/-- Operands of a scalar store of g2 at g1. -/
def mem21 : MemOps := { rd := 2, rb := 1, rsv := 0, off := 0 }
theorem wit_sweeperFrame : (∃ w, platEncode (.st64 p0 mem21) = some (p0, w)) ∧ (∃ t, exec (.st64 p0 mem21) (demo inFw) = .next t) ∧
    (∃ t, exec (.st64 p0 mem21) (demo awake) = .next t) ∧ (∀ o, Instr.st64 p0 mem21 ≠ .fret p0 o) ∧
    destScalar (.st64 p0 mem21) ≠ some 31 ∧ destVector (.st64 p0 mem21) ≠ some 7 ∧ inFw.swp.fw = true ∧ awake.swp.fw = false :=
  ⟨⟨_, rfl⟩, ⟨_, rfl⟩, ⟨_, rfl⟩, (fun _ h => by cases h), by decide, by decide, rfl, rfl⟩
theorem wit_storeFrame : storeRange awake (.st64 p0 mem21) = some (0, 8) ∧ storeRange awake (.ld64 p0 mem21) = none ∧
    (∃ w, platEncode (.ld64 p0 mem21) = some (p0, w)) ∧ ∃ t, exec (.ld64 p0 mem21) (demo awake) = .next t :=
  ⟨by decide +kernel, by decide +kernel, ⟨_, rfl⟩, _, rfl⟩

/-! ### The premises of the statements about the sweeper -/

theorem wit_canIssue : (demo awake).canIssue p0 0 = true ∧ (demo awake).canIssue p0 1 = true ∧ (demo awake).canIssue p0 2 = true ∧
    (demo awake).atInstr p0 = true ∧ (demo inFw).canIssue p0 0 = true := by decide +kernel
/-- ALU operands: g3 from g1 and g2, or from g1 and the number. -/
def alu (immf : Bool) (rs2 : BitVec 5) (imm : BitVec 32) : AluOps := { rd := 3, rs1 := 1, rs2 := rs2, immf := immf, rsv := 0, imm := imm }
theorem wit_aluResults : (alu true 0 5).rsv = 0 ∧ (demo awake).canIssue p0 0 = true ∧ (alu false 0 0).immf = false ∧ (alu false 0 0).rs2 = 0 ∧
    (demo awake).atInstr p0 = true ∧ (alu false 2 0).rs2 ≠ 0 := by decide +kernel
theorem wit_immResults : (demo awake).canIssue p0 0 = true ∧ (({ rd := 3, rsv := 0, imm := 0xFFFF } : ImmOps).imm.toNat < 2 ^ 16) ∧
    (demo awake).atInstr p0 = true ∧ 2 ^ 16 ≤ ({ rd := 3, rsv := 0, imm := 0x10000 } : ImmOps).imm.toNat := by decide +kernel
/-- MEM operands with base g1. -/
def memAt (rd : BitVec 5) : MemOps := { rd := rd, rb := 1, rsv := 0, off := 0 }
/-- A parcel whose g1 is as given. -/
def base (a : Word) : ParcelState := regs [(1, a)]
theorem wit_memResults : (demo (base 0x567FF8)).canIssue p0 0 = true ∧ 0x567FF8 % 8 = 0 ∧ 0x567FF8 + 8 ≤ 0x568000 ∧
    (demo (base 0x567C00)).canIssue p0 1 = true ∧ (memAt 7).rd.toNat < 8 ∧ 0x567C00 % 8 = 0 ∧ 0x567C00 + 1024 ≤ 0x568000 ∧
    storeCheck (base 0x52FFF8) 0x52FFF8 8 8 = none ∧ storeCheck (base 0x52FC00) 0x52FC00 1024 8 = none ∧
    storeCheck (base 0x567FFF) 0x567FFF 1 1 = none := by decide +kernel
theorem wit_accessExceptions : (demo (base 1)).atInstr p0 = true ∧ (memAt 7).rsv = 0 ∧ 1 % 2 ≠ 0 ∧ 0x568000 < 0x567FFF + 2 ∧
    (memAt 7).rd.toNat < 8 ∧ 0x600000 < 0x5FFFFF + 2 ∧
    (0x530000 % 8 = 0 ∧ 0x530000 + 8 ≤ 0x600000 ∧ 0x530000 < 0x550000 ∧ 0x530000 < 0x530000 + 8) ∧
    (0x568000 % 8 = 0 ∧ 0x568000 + 8 ≤ 0x600000 ∧ 0x550000 ≤ 0x568000 ∧ awake.storeOpen false 0x568000 8 = false) := by decide +kernel
/-- BR operands: g1 against g2. -/
def br (off : BitVec 32) : BrOps := { rd := 31, rs1 := 1, rs2 := 2, rsv := 0, off := off }
theorem wit_branchResults : (demo awake).canIssue p0 0 = true ∧ (br 0xFFFFFFF8).rsv = 0 ∧ (br 0xFFFFFFF8).off.toNat % 8 = 0 ∧
    (demo awake).atInstr p0 = true ∧ (br 4).off.toNat % 8 ≠ 0 := by decide +kernel
/-- VEC operands of an element type. -/
def vec (et : BitVec 4) : VecOps := { vd := 1, vs1 := 2, vs2 := 3, et := et, sc := false, rs := 0, rd := 4, rsv := 0 }
theorem wit_vecResults : (demo awake).canIssue p0 1 = true ∧ (vec 2).rsv = 0 ∧ (((vec 2).et = 0 ∧ 32 = 8) ∨ ((vec 2).et = 1 ∧ 32 = 16) ∨
    ((vec 2).et = 2 ∧ 32 = 32)) ∧ (vec 3).et = 3 ∧ (demo awake).atInstr p0 = true ∧ 3 < (vec 4).et.toNat ∧ (vec 4).et ≠ 3 := by
  decide +kernel
/-- CVT operands: g1 to g2, g3 elements. -/
def cvt (sf df width : BitVec 4) (sr : Bool) : CvtOps :=
  { tag := 1, sf := sf, df := df, sr := sr, width := width, ra := 1, rb := 2, rn := 3, rk := 4, rbs := 5, rsv := 0 }
/-- Source 0, destination 0x10000, and a number of elements. -/
def cvtRegs (n : Word) : ParcelState := regs [(1, 0), (2, 0x10000), (3, n)]
theorem wit_cvtResult : (demo (cvtRegs 1)).canIssue p0 2 = true ∧ cvtBad (cvtRegs 1) (cvt 8 9 0 false) 0 0x10000 1 = false ∧
    cvtBad (cvtRegs 32) (cvt 8 10 0 true) 0 0x10000 32 = false ∧ cvtBad (cvtRegs 1024) (cvt 8 0 8 false) 0 0x10000 1024 = false ∧
    cvtBad (cvtRegs 0) (cvt 8 9 0 false) 0 0x10000 0 = false ∧ (demo (cvtRegs 1)).atInstr p0 = true ∧
    12 ≤ (cvt 12 0 0 false).sf.toNat ∧ 12 ≤ (cvt 0 12 0 false).df.toNat ∧ 8 < (cvt 0 0 9 false).width.toNat ∧ 2 ^ 20 < 2 ^ 20 + 1 := by
  decide +kernel
/-- SMP operands. -/
def smp : SmpOps := { rd := 4, rs1 := 1, rs2 := 2, rs3 := 3, km1 := 0, rsv := 0 }
/-- Two values at 0, a list at 0x10000, a penalty over two indices. -/
def smpRegs : ParcelState :=
  { regs [(1, 0), (2, 2), (3, 0x10000), (4, 0x000000023F800000)] with sram := [(3, 0x40), (6, 0x80), (7, 0x3F)] }
theorem wit_samplingResults : (demo smpRegs).canIssue p0 2 = true ∧ smp.rsv = 0 ∧ 0 % 4 = 0 ∧ loadOpen false 0 8 = true ∧
    f32IsNan (BitVec.ofNat 32 (leNat (smpRegs.read 0 4))) = false ∧ readable smpRegs 0 8 4 = true ∧ writable smpRegs 0x10000 8 4 = true ∧
    writable smpRegs 0 8 4 = true ∧ readable smpRegs 0x10000 8 4 = true := by decide +kernel
/-- SYS operands. -/
def sys (csr : BitVec 12) : SysOps := { rd := 3, rs := 1, csr := csr, rsv := 0 }
/-- The event of the recompute of LMV 4 on lot 3. -/
def recomputeEvent : Word := 0x8000030000000004
/-- A parcel with a firmware event in front of an image event. -/
def twoEvents (fw : Bool) : ParcelState := { swp := { inReset := false, fw := fw, events := [fwEvent, imageEvent] } }
/-- A parcel with an instruction of token counter 15 in flight. -/
def tokenOut (fw : Bool) : ParcelState := { swp := { inReset := false, fw := fw }, tokens := [(15, 1)] }
/-- WAITQ of a mask. -/
def waitOps (mask : BitVec 16) : WaitOps := { tag := 0, tk := 0, mask := mask, rsv := 0 }
theorem wit_sysResults : (demo awake).canIssue p0 0 = true ∧ (sys 15).rsv = 0 ∧ (sys 15).csr.toNat < 16 ∧ (sys 0x17).csr.toNat ≤ 0x17 ∧
    awake.swp.events.all isFwEvent = true ∧ (twoEvents false).swp.events = [fwEvent] ++ imageEvent :: [] ∧
    [fwEvent].all isFwEvent = true ∧ isFwEvent imageEvent = false ∧ (demo awake).nextRaises p0 = false ∧
    (demo (atWord 0xF0)).nextRaises p0 = true ∧ isRecompute recomputeEvent = true ∧ isFwEvent recomputeEvent = true ∧
    isRecompute 0x8100000000000007 = false ∧ (demo awake).wardenQueue p0.d < 256 ∧ (demo awake).atInstr p0 = true ∧
    (demo (twoEvents false)).canIssue p0 0 = true := by decide +kernel
theorem wit_waits : (waitOps 0x7FFF).rsv = 0 ∧ (∀ k, k < 16 → (waitOps 0x7FFF).mask.getLsbD k = true → (tokenOut false).token k = 0) ∧
    ¬ (∀ k, k < 16 → (waitOps 0x8000).mask.getLsbD k = true → (tokenOut false).token k = 0) ∧ (tokenOut false).swp.fw = false ∧
    (∀ k, k < 16 → (BitVec.allOnes 16).getLsbD k = true → awake.token k = 0) ∧
    ¬ (∀ k, k < 16 → (BitVec.allOnes 16).getLsbD k = true → (tokenOut true).token k = 0) ∧ (tokenOut true).swp.fw = true ∧
    (demo (tokenOut true)).canIssue p0 0 = true ∧ (demo (tokenOut false)).canIssue p0 0 = true := by decide +kernel
theorem wit_firmwareBank : (demo (twoEvents false)).running p0 = true ∧ (twoEvents false).swp.inReset = false ∧
    (twoEvents false).health.bollard = false ∧ (twoEvents false).swp.events = [] ++ fwEvent :: [imageEvent] ∧ isFwEvent fwEvent = true ∧
    (demo inFw).canIssue p0 0 = true ∧ inFw.swp.fw = true ∧ (demo awake).atInstr p0 = true ∧ awake.swp.fw = false := by decide +kernel
theorem wit_hintForecast : (demo awake).canIssue p0 0 = true ∧ ({ rsvHi := 0, draw := 4095, dur := 0, rsv := 0 } : HintOps).rsv = 0 ∧
    (∃ w, platEncode (.hint p0 { rsvHi := 0, draw := 4095, dur := 0, rsv := 0 }) = some (p0, w)) := ⟨by decide +kernel, rfl, _, rfl⟩
theorem wit_reservedFields : (demo awake).atInstr p0 = true ∧ ({ rd := 0, rs1 := 0, rs2 := 0, immf := false, rsv := 1, imm := 0 } : AluOps).rsv ≠ 0 ∧
    8 ≤ (memAt 8).rd.toNat := by decide +kernel

/-! ### The premises of the statements about the units -/

/-- A parcel whose logical lot 5 is physical lot 3. -/
def mapped : ParcelState := { swp := { inReset := false }, map := [(5, 0x83)] }
/-- LMV operands: logical lot, four planes, source g1, destination g2. -/
def lmv (lot : BitVec 4) : LmvOps := { tag := 1, tk := 2, lot := lot, nm1 := 3, ofmt := 0, rs := 1, rd := 2, rsv := 0 }
/-- An LMV queued in lot 3. -/
def work3 (accum : Bool) (ofmt src : Nat) : LmvWork :=
  { id := 4, accum := accum, tag := 1, tk := 2, logical := 5, phys := 3, n := 2, ofmt := ofmt, src := src, dst := 0x10000, fw := false,
    epc := 0x530000 }
/-- A parcel whose token counter 2 is full. -/
def tokensFull : ParcelState := { mapped with tokens := [(2, 255)] }
theorem wit_lotIssue : (demo mapped).canIssue p0 3 = true ∧ (lmv 5).rsv = 0 ∧ mapped.mapEntry 5 = some (3 : LotId).val ∧
    mapped.token 2 < 255 ∧ (mapped.lot 3).queue.length < 4 ∧ (demo tokensFull).atInstr p0 = true ∧ tokensFull.token 2 = 255 ∧
    mapped.mapEntry 6 = none := by decide +kernel

/-- DMM operands: INT4 tile, INT8 vectors, two vectors. -/
def dmm (write chain : Bool) : DmmOps :=
  { tag := 1, tk := 2, tf := 1, xf := 0, nm1 := 3, km1 := 1, chain := chain, write := write, wf := false, raw := false, rt := 1, rx := 2,
    rd := 3, rsv := 0 }
/-- DMG operands. -/
def dmg (enter exit : Bool) : DmgOps := { tag := 1, tk := 2, enter := enter, exit := exit, rb := 1, rsv := 0, g2 := 7 }
/-- ATS, ATV and ATX operands of one head. -/
def ats : AtsOps := { tag := 1, tk := 2, gm1 := 0, nvm1 := 0, rq := 1, rp := 2, rd := 3, rsv := 0 }
def atv (write : Bool) : AtvOps :=
  { tag := 1, tk := 2, rsvHi := 0, gm1 := 0, nvm1 := 0, rw := 1, rp := 2, rd := 3, pf := 5, chain := false, write := write, rsv := 0 }
def atx : AtxOps := { tag := 1, tk := 2, gm1 := 0, rsvHi := 0, rq := 1, rs := 2, rd := 3, rn := 4, rsv := 0 }
theorem wit_dmeIssue : (demo awake).canIssue p0 (dmmClass (dmm false false)) = true ∧ (demo awake).canIssue p0 12 = true ∧
    (demo awake).canIssue p0 9 = true ∧ (demo awake).canIssue p0 8 = true ∧ awake.token 2 < 255 ∧ awake.dme.queue.length < 8 ∧
    (dmm true true).rsv = 0 ∧ (dmg true false).rsv = 0 ∧ ats.rsv = 0 ∧ (atv false).rsvHi = 0 ∧ (atv false).rsv = 0 ∧ atx.rsvHi = 0 ∧
    atx.rsv = 0 ∧ (demo tokensFull).atInstr p0 = true := by decide +kernel
theorem wit_dataIssue : (demo awake).canIssue p0 4 = true ∧ (demo awake).canIssue p0 5 = true ∧ (demo awake).canIssue p0 6 = true ∧
    (awake.kapq.filter (fun e => !e.sent)).length < 4 ∧ awake.lq.length < 32 ∧ awake.sq.length < 32 ∧ awake.lane.queue.length < 16 ∧
    ({ tag := 0, tk := 2, kind := true, rsvHi := 0, rs := 1, ra := 2, rsv := 0 } : KapOps).rsv = 0 ∧
    ({ tag := 0, tk := 2, raw := true, cm1 := 4095, ra := 1, rs := 2, rsv := 0 } : QueOps).rsv = 0 ∧
    ({ tag := 0, tk := 2, plan := false, raw := true, cm1 := 0, ch := 63, rs := 1, rt := 2, rsv := 0 } : SndOps).rsv = 0 ∧
    ({ tag := 0, tk := 2, rsvHi := 0, raw := true, cm1 := 0, ch := 63, rd := 1, rt := 2, rsv := 0 } : RcvOps).rsv = 0 ∧
    ({ tag := 0, tk := 2, rsvHi := 0, raw := true, cm1 := 0, ch := 63, rs := 1, tree := 255, rsv := 0 } : McsOps).rsv = 0 ∧
    (demo tokensFull).atInstr p0 = true ∧ tokensFull.token 2 = 255 := by decide +kernel

/-- A parcel whose lot 3 is as given. -/
def lot3 (x : LotState) : ParcelState := { swp := { inReset := false }, lots := [(3, x)] }
/-- An output entry of zeros whose group 1 waits for its recompute. -/
def out3 (failing : List Nat) (done : Bool) : OutEntry :=
  { work := work3 false 0 0, y := List.replicate 1024 0, e := 127, failing := failing, recomputed := done }
/-- Codes of which one is 1. -/
def oneCode : List Byte := 1 :: List.replicate 1023 0
theorem wit_lotQueues : (lot3 { queue := [work3 false 0 0] }).firstFill = some (3, work3 false 0 0) ∧ lmvBad (work3 false 0 0) = false ∧
    lmvBad (work3 true 1 0) = true ∧ (lot3 { queue := [work3 true 1 0] }).firstFill = some (3, work3 true 1 0) ∧
    (lot3 { outq := [out3 [] true] }).oldestLmv = some 4 ∧ (out3 [] true).complete = true ∧ (out3 [] true).work.accum = false ∧
    (out3 [] true).work.ofmt = 0 ∧ (∀ m, m < 3 → (((lot3 { outq := [out3 [] true] }).lot m).outq.head?.map (fun x => x.work.id)) ≠ some 4) := by
  decide +kernel
theorem formPhases_ne (codes : List Byte) (n k : Nat) (hk : k < n) (h : planeRows codes k ≠ []) : formPhases n codes ≠ [] := by
  intro e
  rw [formPhases, List.flatMap_eq_nil_iff] at e
  have := e k (by simp [hk])
  simp only [List.map_eq_nil_iff] at this
  cases hp : planeRows codes k with
  | nil => exact h hp
  | cons a l => rw [hp] at this; simp [chunks] at this
theorem planeRows_zeros (k : Nat) : planeRows (List.replicate 1024 0) k = [] := by
  rw [planeRows, List.filter_eq_nil_iff]
  intro r _
  rw [List.getD_eq_getElem?_getD, List.getElem?_replicate]
  split <;> simp
theorem chunks_nil (n f : Nat) : chunks n f ([] : List Nat) = [] := by cases f <;> rfl
theorem wit_lmvStart : formPhases 2 oneCode ≠ [] ∧ formPhases 2 (List.replicate 1024 0) = [] ∧
    ({ staging := [{ work := work3 false 0 0, codes := oneCode, e := 127 }] } : LotState).outq.length < 4 ∧
    ({ staging := [{ work := work3 false 0 0, codes := oneCode, e := 255 }] } : LotState).saveHeld = none ∧
    ({ saveHeld := some 9, outq := [{ out3 [1] false with jobDone := true }] } : LotState).saveHeld.isSome = true ∧
    (∀ v ∈ [({ out3 [1] false with jobDone := true } : OutEntry)], v.jobDone = true) ∧ ({} : LotState).stalled = none := by
  refine ⟨formPhases_ne _ 2 0 (by decide) ?_, ?_, by decide, rfl, rfl, by decide, rfl⟩
  · exact List.ne_nil_of_mem (List.mem_filter.mpr ⟨List.mem_range.mpr (by decide), rfl⟩ : 0 ∈ planeRows oneCode 0)
  · rw [formPhases, List.flatMap_eq_nil_iff]
    intro k _
    rw [planeRows_zeros, chunks_nil, List.map_nil]
/-- A parcel in the routine of that event. -/
def recompute : ParcelState :=
  { lot3 { outq := [out3 [1] false], segment := some (0x80000000, 0) } with
    swp := { inReset := false, fw := true, fwEvent := recomputeEvent } }
theorem wit_lotCare : ({} : LotState).cp.flagLimit ≠ 0 ∧ (16 ≤ ({ persistSince := 16 } : LotState).persistSince) ∧
    ({ persistSince := 16 } : LotState).reported = false ∧
    ({ fits := [{ group := 2, sumEm := 0, sumE := 1, sumE2 := 1, sumM := 1 }] } : LotState).fits.length = 1 ∧
    (demo recompute).running p0 = true ∧ recompute.recomputing = true ∧ recomputeOf recompute.swp.fwEvent = (3, 4) ∧
    recompute.dme.held = [] ∧ recompute.dme.grid = false ∧ (recompute.lot 3).segment = some (0x80000000, 0) ∧
    (out3 [1] false).recomputed = false ∧ (recompute.lot 3).outq.find? (fun v => v.work.id == 4) = some (out3 [1] false) := by
  decide +kernel

/-- A DME instruction with number 4. -/
def dmeWork (op : DmeOp) : DmeWork := { id := 4, tag := 1, tk := 2, op := op, fw := false, epc := 0x530000, behind := true }
/-- A parcel whose DME is as given. -/
def dme0 (d : DmeState) : ParcelState := { swp := { inReset := false }, tokens := [(2, 1)], dme := d }
/-- The DMM of the tests queued. -/
def dmmWork (write chain : Bool) : DmeWork := dmeWork (.dmm (dmm write chain) 0 0x10000 0x20000)
/-- Its two vectors. -/
def twoVectors : List OpVec :=
  [{ id := 4, v := 0, bytes := List.replicate 64 1, skip := 0, slots := 1 }, { id := 4, v := 1, bytes := List.replicate 64 2, skip := 0, slots := 1 }]
/-- The DME with the DMM running. -/
def dmmRunning (write chain : Bool) (opq : List OpVec) (acc : Sparse AccEntry) : DmeState :=
  { running := some { work := dmmWork write chain, tile := List.replicate 4096 0x11 }, opq := opq, acc := acc }
theorem wit_dmmRuns : dmmBad false (dmm true false) 0 0x10000 0x20000 = false ∧ dmmWide (dmm true false) = false ∧
    (dme0 { queue := [dmmWork true false] }).dme.fillOrder.find? (fun u => ((dme0 { queue := [dmmWork true false] }).dme.nextVector u).isSome) =
      some (dmmWork true false) ∧ ([] : List OpVec).length < (dmm true false).km1.toNat + 1 ∧ ({} : DmeState).shadow = none ∧
    (dme0 { queue := [dmmWork true false] }).dme.nextVector (dmmWork true false) = some 0 ∧
    (dme0 { queue := [dmmWork true false] }).dme.opqFill + 1 ≤ 16 ∧ (dmm true false).km1.toNat + 1 = twoVectors.length ∧
    kindClash (dmmRunning true false twoVectors []) (dmm true false) = false ∧
    kindClash (dmmRunning true true twoVectors [(0, { kind := .float })]) (dmm true true) = true := by decide +kernel
/-- A word that the free reading of the G2 takes as GSY is no bad operand; how words are read is in no part of the manual. -/
theorem wit_dmgGood (g : BitVec 32) (h : Config.g2Kind g = 4) : dmgBad false { dmg true false with g2 := g } 0 {} = false := by
  simp [dmgBad, g2Reads, g2Stores, h]
theorem wit_dmeDispatch : (dme0 {}).dme.shadow = none ∧
    ({ outq := [out3 [] true] } : LotState).outq = [out3 [] true] ∧ (out3 [1] false).recomputed = false ∧ (dme0 { queue := [dmmWork false false] }).dme.running = none ∧
    ((dme0 { jobs := [(9, 3)], queue := [dmeWork (.dmg (dmg true false) 0)] }).runJobs.dme.queue = [dmeWork (.dmg (dmg true false) 0)]) ∧
    (dmg true false).enter = !(dme0 {}).dme.grid ∧ (dmg false true).enter = (dme0 {}).dme.grid ∧ atsBad false 1 0 0x10000 0x30000 = false ∧
    atvBad false (atv false) 1 0 0x10000 0x30000 = false ∧ atvBad false (atv true) 1 0 0x10000 0x30000 = false ∧
    atxBad false 1 0 0x10000 0x30000 1 = false := by decide +kernel

/-! ### The premises of the statements about appends, queues, stacks and lanes -/

/-- A flit to a sink. -/
def flitTo (e : Endpoint) (pl : Payload) : Flit :=
  { id := 9, vc := 2, tenant := 0, ch := 0, dst := e, src := .parcel p1, seq := 0, typ := 0, leg := 1, wayd := 63, payload := pl,
    loc := .sink e, since := 0 }
/-- The demonstration engine with one flit. -/
def withFlit (ps : ParcelState) (f : Flit) : State := { demo ps with net := { flits := [f] } }
/-- The engine with a flit of parcel 0 on each VC that waits for a buffer. -/
def jammed (ps : ParcelState) : State :=
  { demo ps with net := { flits := (List.range 6).map (fun v =>
    { flitTo (.parcel p1) (.kapAck 4) with id := v, vc := v, src := .parcel p0, loc := .source }) } }
/-- A KAP of a value, and one with a misaligned descriptor. -/
def kap (value : Bool) (desc : Nat) : KapWork :=
  { id := 4, tag := 1, tk := 2, value := value, src := 0, desc := desc, fw := false, epc := 0x530000, sent := false }
/-- A parcel that serves a KAP whose descriptor names a head group of one. -/
def kapping (w : KapWork) : ParcelState :=
  { regs [] with kapq := [w], swp := { inReset := false, param := [(0, 0x0000000100000000)] }, sram := [(0x10000 + 18, 1)] }
/-- The engine with logical parcel 0 on parcel 1. -/
def placed (ps : ParcelState) : State := { demo ps with net := { place := [(0, p1)] } }
/-- A value row for slot 3, position 2. -/
def row (slot : Nat) : KapRow :=
  { step := 7, slot := slot, layer := 0, head := 0, value := true, pos := 2, part := 0, bytes := List.replicate 68 1, issuer := p1,
    tk := 2, tag := 1, id := 4 }
/-- The page it goes to. -/
def page3 : Page := { slot := 3, head := 0, n := 0, home := 0, frame := some 1, sealed := false, refs := [3] }
/-- An owner with slot 3 open for step 7. -/
def owner : ParcelState := { regs [] with kv := { open_ := [{ slot := 3, len := 2, step := 7 }], pages := [page3] } }
theorem wit_appends : (kapping (kap true 0x10000)).kapq.find? (fun k => !k.sent) = some (kap true 0x10000) ∧
    kapBad (kapping (kap true 0x10000)) (kap true 0x10000) = false ∧ kapBad (kapping (kap true 0x10004)) (kap true 0x10004) = true ∧
    (placed (kapping (kap true 0x10000))).net.place.lookup 0 = some p1 ∧
    (placed (kapping (kap true 0x10000))).canSendRun 1 (.parcel p1) (.parcel p0) 2 = true ∧
    ((placed (kapping (kap true 0x10000))).kapInject p0 p1 (kap true 0x10000) (kapDesc (awake.read 0 32))
      [List.replicate 68 0]).isSome = true ∧
    (withFlit owner (flitTo (.parcel p0) (.kapRow (row 3)))).flit 9 = some (flitTo (.parcel p0) (.kapRow (row 3))) ∧
    owner.kv.accepts (row 4) = none ∧ owner.kv.accepts (row 3) = some (page3, 1) ∧
    ((demo owner).dist p0.d.val).locks.length < 1024 ∧ (demo owner).canSend 2 (.parcel p1) (.parcel p0) = true ∧
    (∀ h ∈ owner.kv.halves, h.issuer ≠ p1) ∧ (jammed owner).canSend 2 (.parcel p1) (.parcel p0) = false ∧ owner.kv.ends (row 3) = true ∧
    ((demo owner).sendHome p0 page3 (row 3) (owner.rowBursts (row 3) 1)).isSome = true := by decide +kernel

/-- A window over the stacks' first 1,440 bytes. -/
def window : Window := { r := true, w := true, length := 1440 }
/-- A queue entry of one record. -/
def entry (store : Bool) (sram : Nat) : QueEntry :=
  { id := 4, order := 4, store := store, tag := 1, tk := 2, raw := true, addr := 72, n := 1, sram := sram, fw := false, epc := 0x530000,
    started := false, seen := [], sent := 0, acked := 0, win := 0 }
/-- A parcel with one entry in each queue. -/
def queued (sram : Nat) : ParcelState := { regs [] with win := [(0, window)], lq := [entry false sram], sq := [{ entry true sram with addr := 144 }] }
theorem wit_queueRuns : (queued 0).lq.find? (fun x => decide (x.sent < (groupRuns x.addr x.n).length) && !(queued 0).blocked x) =
      some (entry false 0) ∧ groupRuns 72 1 = [(0, 1)] ∧ (demo (queued 0)).canSend 1 (.stack 0) (.parcel p0) = true ∧
    (demo (queued 0)).canSend 3 (.stack 0) (.parcel p0) = true ∧ (jammed (queued 0)).canSend 1 (.stack 0) (.parcel p0) = false ∧
    (jammed (queued 0)).canSend 3 (.stack 0) (.parcel p0) = false ∧
    (queued 4).queueBad (entry false 4) = true ∧ (queued 0).queueBad (entry false 0) = false ∧
    (queued 0).windowOf false false 72 1 = some 0 ∧ ((demo (queued 0)).inject 1 0 0 2 (.stack 0) (.parcel p0) (.readReq (.ldq 4) 0 1 72 0)).isSome = true ∧
    (queued 0).sq.find? (fun x => decide (x.sent < x.n) && !(queued 0).blocked x) = some { entry true 0 with addr := 144 } ∧
    (queued 4).queueBad { entry true 4 with addr := 144 } = true ∧ (queued 0).windowOf true false 144 1 = some 0 ∧
    (queued 0).hasWriteCredit 0 = true ∧
    ((demo (queued 0)).injectWrite p0 144 (List.replicate 72 0) (.stq 4)).isSome = true := by decide +kernel
/-- A record with a good CRC. -/
def goodRecord : List Byte := storedRecord (List.replicate 68 5)
theorem wit_returns : (kapping { kap true 0 with sent := true }).kapq.find? (fun k => k.id == 4 && k.sent) = some { kap true 0 with sent := true } ∧
    (withFlit awake (flitTo (.parcel p0) (.kapAck 4))).flit 9 = some (flitTo (.parcel p0) (.kapAck 4)) ∧
    (queued 0).lq.find? (fun x => x.id == 4) = some (entry false 0) ∧
    (withFlit awake (flitTo (.parcel p0) (.ackCount 0 [.stq 4] 0 8))).flit 9 = some (flitTo (.parcel p0) (.ackCount 0 [.stq 4] 0 8)) ∧
    recordOk goodRecord = true ∧
    recordOk (List.replicate 72 7) = false := by decide +kernel
/-- A request for one record that a stack's controller holds. -/
def readFlit : Flit := { flitTo (.stack 3) (.readReq (.ldq 4) 0 1 72 0) with vc := 1 }
theorem wit_stackServes : (withFlit awake readFlit).flit 9 = some readFlit ∧ readFlit.readClass.isSome = true ∧
    (withFlit awake readFlit).nextRead 3 = some readFlit ∧ ((withFlit awake readFlit).respond [] (.parcel p1) (.ldq 4) 0 72 1).2 = 1 ∧
    (withFlit awake (flitTo (.stack 3) (.write 72 [1, 2] .port true))).flit 9 = some (flitTo (.stack 3) (.write 72 [1, 2] .port true)) ∧
    (withFlit awake readFlit).canSend 2 (.parcel p1) (.stack 3) = true ∧ (flitTo (.stack 3) (.kapAck 4)).loc = .sink (.stack 3) ∧ ({} : Stacks).lost.length < 3 ∧ 3 ≤ ({ lost := [0, 7, 23] } : Stacks).lost.length ∧
    Sparse.get 0 ({ awake with poolCredits := [(3, 8)] } : ParcelState).poolCredits 3 ≠ 0 := by decide +kernel

/-- A SND of one record to logical parcel 0 of engine 0, from SRAM. -/
def snd (src : Nat) (t : Word) : LaneWork := .snd 4 1 2 false true 1 5 src t false 0x530000
/-- An MCS on tree 6. -/
def mcs (src : Nat) : LaneWork := .mcs 4 1 2 true 1 5 src 6 false 0x530000
/-- An RCV of the flow of parcel 0 of engine 1. -/
def rcv : LaneWork := .rcv 4 1 2 true 1 5 0 0x0001000000000000 false 0x530000
/-- A parcel of a model of one parcel with that lane queue. -/
def laned (q : List LaneWork) : ParcelState :=
  { swp := { inReset := false, param := [(0, 0x0000000100000000)] }, lane := { queue := q } }
/-- The placed engine with tree 6 rooted at parcel 0. -/
def treed (ps : ParcelState) : State := { placed ps with net := { place := [(0, p1)], trees := [(6, { root := 0, members := [0] })] } }
/-- The placed engine whose parcel 0 has a flit waiting on each VC. -/
def placedJam (ps : ParcelState) : State := { placed ps with net := { (placed ps).net with flits := (jammed ps).net.flits } }
theorem wit_sendStarts : sndBad (laned [snd 0 0]) none false true 1 0 0 false = false ∧
    sndBad (laned [snd 0x530000 0]) none false true 1 0x530000 0 false = true ∧
    sndBad (laned [snd 0 1]) none false true 1 0 1 false = true ∧ (demo (laned [snd 0 0])).sendFlit p0 0 (snd 0 0) = none ∧
    ((placed (laned [snd 0 0])).sendFlit p0 0 (snd 0 0)).any (fun x => (placed (laned [snd 0 0])).sendOpen p0 (snd 0 0) x &&
      ((placed (laned [snd 0 0])).inject x.vc x.ch x.seq 0 x.dst (.parcel p0) x.payload).isSome) = true ∧
    ((placedJam (laned [snd 0 0])).sendFlit p0 0 (snd 0 0)).any (fun x => !(placedJam (laned [snd 0 0])).sendOpen p0 (snd 0 0) x) = true ∧
    (laned [snd 0 0]).lane.sentOf 4 = none ∧ (demo (laned [snd 0 0])).sendTotal (snd 0 0) = 1 ∧
    (demo (laned [snd 0 0])).sendBad (laned [snd 0 0]) (snd 0 0) = false ∧ (demo (laned [mcs 0])).sendBad (laned [mcs 0]) (mcs 0) = true ∧
    (((treed (laned [mcs 0])).net.trees.lookup 6).any (fun x => x.root == (laned [mcs 0]).lparcel) && unitOpen false 0 64) = true ∧
    ((treed (laned [mcs 0])).sendFlit p0 0 (mcs 0)).isSome = true ∧ (treed (laned [mcs 0])).sendTotal (mcs 0) = 1 ∧
    ((demo (laned [mcs 0])).net.trees.lookup 6).any (fun x => x.root == 0) = false := by decide +kernel
/-- The flow of the RCV above. -/
def flow1 : Flow := { eng := 1, lp := 0, ch := 5 }
/-- A buffer posted for it. -/
def posted1 : Posted :=
  { id := 3, tag := 1, tk := 2, flow := flow1, raw := true, n := 2, dst := 0, base := 0, got := [], fw := false, epc := 0x530000 }
/-- A record held in the store. -/
def held1 : HeldRec := { flow := { flow1 with ch := 6 }, raw := true, seq := 0, bytes := [], step := 0 }
/-- A parcel whose store is full; with a full spill region as well. -/
def storeFull (spill : List SpillEnt) : ParcelState := { regs [] with lane := { store := List.replicate 32 held1, spill := spill } }
/-- A record's flit. -/
def recordFlit : Flit := flitTo (.parcel p0) (.record flow1 true goodRecord 7)
theorem wit_receives : targetEngine 0x0001000000000000 = 1 ∧ targetParcel 0x0001000000000000 = 0 ∧ (laned [rcv]).engine = 0 ∧
    unitOpen false 0 64 = true ∧ ({ posted := [posted1] } : LaneUnit).posted.any (fun b => b.flow == flow1) = true ∧
    (laned [rcv]).lane.posted.any (fun b => b.flow == flow1) = false ∧ (withFlit awake recordFlit).flit 9 = some recordFlit ∧
    (({ regs [] with lane := { posted := [posted1] } } : ParcelState).offer flow1 true 1 goodRecord 7).isSome = true ∧
    awake.offer flow1 true 0 goodRecord 7 = none ∧ awake.lane.store.length < 32 ∧ (storeFull []).offer flow1 true 0 goodRecord 7 = none ∧
    (storeFull []).lane.freeSpill = some 0 ∧ goodRecord.length = 72 ∧ (laned [rcv]).lane.store.all (fun h => h.flow ≠ flow1) = true := by
  decide +kernel
theorem wit_spillWrites : ((withFlit (storeFull []) recordFlit).dropFlit 9 |>.spillRecord p0 recordFlit
    { entry := 0, flow := flow1, raw := true, seq := 0, step := 7 } goodRecord).isSome = true := by decide +kernel
/-- A spill region with every entry in use. -/
def spillFull : List SpillEnt := (List.range 440).map (fun e => { entry := e, flow := flow1, raw := true, seq := 0, step := 0 })
theorem wit_spillFull : (storeFull spillFull).lane.freeSpill = none ∧ 32 ≤ (storeFull spillFull).lane.store.length := by
  refine ⟨?_, by decide⟩
  rw [LaneUnit.freeSpill, List.find?_eq_none]
  intro e he
  have h : e < 440 := by
    obtain ⟨i, -, rfl⟩ := List.mem_map.mp he
    exact Nat.mod_lt _ (by decide)
  have : (storeFull spillFull).lane.spill.any (fun x => x.entry == e) = true := by
    rw [List.any_eq_true]
    exact ⟨_, List.mem_map.mpr ⟨e, List.mem_range.mpr h, rfl⟩, by simp⟩
  simp [this]

/-! ### The premises of the statements about lanes, boot, roles and registers -/

/-- A flit that reaches the router of parcel 0 from its local port. -/
def linkFlit (dst : Endpoint) (vc : Nat) : Flit :=
  { id := 9, vc := vc, tenant := 0, ch := 0, dst := dst, src := .parcel p0, seq := 0, typ := 0, leg := 1, wayd := 63,
    payload := .kapAck 4, loc := .link p0 4, since := 0 }
/-- A dead engine, and one that lost district 7. -/
def dark : State := { demo awake with dists := [(0, { st := .dark })] }
theorem wit_routerRows : (withFlit awake (linkFlit (.parcel p1) 1)).flit 9 = some (linkFlit (.parcel p1) 1) ∧ (dark.dist 0).st = .dark ∧
    ((demo awake).dist 0).st = .active ∧ routeAt [] p0 (.parcel p1) 0 1 63 = some (2, 1) ∧ routeAt [] p0 (.parcel p0) 0 1 63 = some (4, 1) ∧
    routeAt [] p0 (.tree 3) 0 1 63 = none ∧ routeAt [] p0 (.warden 0) 0 1 63 = some (5, 1) ∧ awake.rtr.fenced = false ∧
    awake.rtr.dead.getLsbD (newsBit 2) = false ∧ awake.rtr.hasCredit 2 1 1 = true ∧ neighbour p0 2 = some (p1, 3) ∧
    (linkFlit (.parcel p1) 6).vc = 6 ∧
    (withFlit awake (linkFlit (.parcel p1) 1)).outputsOf p0 (linkFlit (.parcel p1) 1) = [(2, 1)] ∧
    (withFlit awake (linkFlit (.tree 3) 5)).outputsOf p0 (linkFlit (.tree 3) 5) = [] ∧ (demo (powered0 31)).portClosed p0 = false ∧
    (demo { awake with health := { bollard := true } }).portClosed p0 = true ∧ (demo awake).sinkOpen (.parcel p0) 1 = true ∧
    (demo { awake with rtr := { used := [(24 * 2 + 4 * 1 + 1, 1)] } }).occupancy p1 3 1 1 < 1 ∧
    (demo { awake with rtr := { used := [(24 * 2 + 4 * 1 + 1, 1)] } }).heads p0 2 = [] ∧ dark.live 0 = false ∧
    dark.net.knowsHole 0 = false ∧ dark.clk.fclk % 4096 = 0 ∧ ({ resvNext := some (1, [(2, 5)]) } : Router).resvNext = some (1, [(2, 5)]) ∧
    lastCycle.clk.fclk % 4096 ≠ 0 := by
  decide +kernel

/-- An engine at a step of boot. -/
def booting (n : Nat) : State := { core := { st := .boot }, boot := { step := n } }
/-- An engine in SERVING with a registry and a deputy. -/
def serving : State :=
  { demo awake with core := { st := .serving, epoch := 1, registry := 0, deputy := 7, depValid := true },
                    dists := [(0, { st := .active, live := true }), (7, { st := .active, live := true })] }
/-- The same engine without a valid deputy. -/
def alone : State := { serving with core := { serving.core with depValid := false, snapshot := true } }
theorem wit_bootRows : State.reset.core.st = .off ∧ 4000 < 4001 ∧ serving.core.st ≠ .off ∧ serving.core.epoch ≠ 0 ∧
    (booting 2).core.st = .boot ∧ (booting 2).boot.step = 2 ∧
    (booting 2).boot.t0 + 60000000000 ≤ ({ booting 2 with time := { ns := 60000000000 } } : State).time.ns ∧
    (booting 2).time.ns < (booting 2).boot.t0 + 60000000000 ∧ (booting 4).boot.step = 4 ∧
    (electRoles (booting 4).liveWardens = none ∧
      (electRoles { booting 4 with dists := serving.dists }.liveWardens).isSome = true) ∧ (booting 5).boot.step = 5 ∧
    (booting 5).nv.fabricOk = true ∧ (booting 5).nv.fabric = none ∧
    ({ fabric := some default } : Nv).fabric = some default ∧ (booting 6).boot.step = 6 ∧
    ((booting 6).bootStacks []).stk.lost.length < 3 ∧ 3 ≤ ((booting 6).bootStacks [0, 7, 23]).stk.lost.length ∧
    (booting 2).core.epoch = 0 ∧ (booting 2).fitted 0 = true := by decide +kernel
theorem wit_bootSlot : (booting 2).nv.bootSlot.isSome = true := by simp [Nv.bootSlot, Nv.verify, Nv.isFactory, booting]
theorem wit_registryRows : serving.core.epoch ≠ 0 ∧ serving.core.st ≠ .off ∧ serving.core.depValid = true ∧ (serving.dist 7).live = true ∧
    alone.core.depValid = false ∧ alone.core.st ≠ .fault ∧ alone.core.snapshot = true ∧
    alone.liveWardens.filter (fun e => e ≠ alone.core.registry && e ≠ alone.core.deputy) = [] ∧
    { serving with dists := (9, { st := .active, live := true }) :: serving.dists }.liveWardens.filter (fun e => e ≠ 0 && e ≠ 7) = [9] ∧
    (serving.dist 7).epochSeen ≤ (1 : BitVec 32).toNat ∧ (0 : BitVec 32).toNat < ({ epochSeen := 1 } : DistState).epochSeen ∧
    7 ≠ serving.core.registry ∧
    (serving.watchers 7).head? = some 0 ∧ ({ hbMissed := 3 } : Core).hbMissed = 3 ∧ ({ hbMissed := 3 } : DistState).hbMissed = 3 := by decide +kernel
theorem wit_fenceRows : awake.health.bollard = false ∧ (demo awake).load.phase ≠ 4 ∧ (demo awake).load.phase ≠ 5 := by decide
/-- An engine that loads a model. -/
def loading : State := { serving with core := { serving.core with st := .standby }, load := { phase := 2 } }
theorem wit_registerWrites : (320 : Word).toNat / 2 ^ 0 % 2 ^ 9 ≤ 320 ∧ 320 < (321 : Word).toNat / 2 ^ 0 % 2 ^ 9 ∧ (60 : BitVec 6).toNat ≤ 60 ∧
    awake.mapped 0 = false ∧ mapped.mapped 3 = true ∧ remapOk (Sparse.put [] 0 0) 1023 = true ∧
    remapOk (Sparse.put [] 0 0x8401) 1023 = false ∧ loading.atLoad p1 = true ∧ serving.atLoad p0 = false := by decide +kernel
theorem wit_refusedAccess : (regPlace 0x200000000004).isSome = true ∧ 4 ≠ 8 ∧ 0x200000000004 % 8 ≠ 0 ∧
    regPlace 0x20000000FFF8 = some (.eng 0xFFF8) ∧ serving.backed 0x200002000000 = true ∧ serving.backed 0x20000000FFF8 = false ∧
    serving.core.epoch ≠ 0 ∧ (booting 2).core.epoch = 0 := by decide +kernel
theorem wit_readClears : 0x200000000008 % 8 = 0 ∧ regPlace 0x200000000008 = some (.eng 8) ∧ (serving.regValue 0x200000000008).isSome = true ∧
    serving.nv.fused.getLsbD 0 = false ∧ ([1] : List Byte) ≠ [] := by decide +kernel

/-! ### The premises of the statements about passes, clients and serving -/

/-- A parcel with a staged lot map: armed and good, or armed and naming lot 18. -/
def staged (bad : Bool) : ParcelState := { awake with mapArm := true, mapStaged := [(0, if bad then 0x92 else 0x81)], lots := [(1, { stale := false })] }
/-- A row that samples in slot 3. -/
def row3 : Row :=
  { token := 5, pos := 0, store := 0, slot := 3, b := 0, sample := true, tree := false, parent := 0, adapter := 255, tenant := 2 }
/-- Step 7 of ordinal 0 with that row. -/
def step7 : Step := { num := 7, owner := 0, desc := 0, rows := [row3], reqs := [(0, 0)], lens := [(3, 0)] }
/-- The engine with one step open. -/
def stepping (st : Step) (ps : ParcelState) : State := { demo ps with core := serving.core, serve := { steps := [st] } }
/-- A member of one head with one frame, and a region of 100 units. -/
def member : ParcelState := { awake with kv := { cfg := BitVec.ofNat 64 (2 ^ 57 + 2 ^ 52) }, win := [(0, { r := true, w := true, length := 5529600 })] }
theorem wit_passRows : (demo (staged false)).running p0 = true ∧ (demo awake).stepOf 7 = none ∧ (demo awake).net.placeNext = none ∧
    (demo awake).net.treesDue = false ∧ (demo awake).net.plan.all (fun (f : PlanFlow) => f.placed) = true ∧
    (staged false).mapArm = true ∧ (staged false).stagedBad = false ∧ (staged true).stagedBad = true ∧ awake.mapArm = false ∧
    serving.core.epoch ≠ 0 ∧ awake.swp.lastImageFault = none ∧ awake.swp.wait = none ∧ awake.swp.postWaiting = [] ∧
    eventFits [] imageEvent = true := by decide +kernel
theorem wit_kvRows : (stepping step7 member).stepOf 7 = some step7 ∧ (stepping step7 member).running p0 = true ∧ member.kv.nframe ≠ 0 ∧
    (stepping step7 member).summariesReady p0 step7 = true ∧
    (stepping { step7 with lens := [(3, 2304)] } member).summariesReady p0 { step7 with lens := [(3, 2304)] } = false ∧
    (withFlit member (flitTo (.parcel p0) (.summary 3 0 0 [1]))).flit 9 = some (flitTo (.parcel p0) (.summary 3 0 0 [1])) ∧
    (awake.takeTable 3 0).isNone = true ∧ (member.takeTable 3 0).isSome = true := by decide +kernel

/-- A serving engine of fabric ID 0 whose ring 5 is bound, with an unacknowledged write. -/
def ringed (retries : Nat) : State :=
  { serving with fab := { ok := true, engineId := 0, conns := [(5, { bound := true, retries := retries, unacked := [{ psn := 0, addr := 0, rkey := 0, bytes := [] }] })] } }
theorem wit_rdmaRows : (ringed 0).connUp 5 = true ∧ writeAllowed 16 8 = true ∧ writeAllowed 0x10000 256 = true ∧ writeAllowed 8 8 = false ∧
    writeAllowed 0x50000 1 = false ∧ 0x3FFFFF0 + 16 ≤ 0x4000000 ∧ ((ringed 6).conn 5).unacked ≠ [] ∧ ((ringed 6).conn 5).retries < 7 ∧
    7 ≤ ((ringed 7).conn 5).retries := by decide +kernel

/-- A request entry with a prompt of one token. -/
def entryBytes (handle : Nat) (flags : Nat) : List Byte :=
  List.replicate 28 0 ++ leBytes 1 4 ++ leBytes handle 8 ++ List.replicate 12 0 ++ leBytes 16 4 ++ leBytes 1 4 ++ [0, 0, 255] ++
    leBytes flags 1 ++ List.replicate 192 0
/-- The engine with tenant 2 on ring 5. -/
def tenanted : State :=
  { serving with serve := { tenants := [(2, { enabled := true, maxReq := 4, rings := 0x20 })] }, model := { vocab := { maxContext := 8, nvocab := 1 } } }
/-- The same engine with one request in the ring. -/
def offered (handle flags : Nat) : State := (tenanted.ringWrite 5 0 (leBytes 1 8)).ringWrite 5 0x10000 (entryBytes handle flags)
/-- That request. -/
def request5 (s : State) : Request := requestOf (s.ringRead 5 0x10000 256) 5 0 2 0 none 0
theorem wit_admission : (offered 0 0).ringTenant 5 = some 2 ∧ (∀ q, q < 128 → q ≠ 5 → (offered 0 0).ringTenant q = none) ∧
    (offered 0 0).canTake 5 2 = some 0 ∧ (offered 0 0).core.st = .serving := by decide +kernel
theorem wit_admissionEntry : entField ((offered 0 0).ringRead 5 0x10000 256) 32 8 = 0 ∧
    (offered 0 0).requestBad ((offered 0 0).ringRead 5 0x10000 256) (request5 (offered 0 0)) none = false ∧
    (offered 0 0).ringLost 5 0x10000 256 = false ∧
    (offered 0 8).requestBad ((offered 0 8).ringRead 5 0x10000 256) (request5 (offered 0 8)) none = true ∧
    entField ((offered 1 0).ringRead 5 0x10000 256) 32 8 = 1 ∧ (offered 1 0).citedPrefix 2 1 = none := by decide +kernel

/-- The engine with a pinned prefix of that tenant, and with a request that cites it. -/
def pinnedOne (s : State) : State :=
  { s with serve := { s.serve with prefixes := [{ slot := 4, tenant := 2, adapter := 255, tokens := [], handle := 1 }] } }
theorem wit_admissionCited : (pinnedOne (offered 1 0)).citedPrefix 2 1 = some { slot := 4, tenant := 2, adapter := 255, tokens := [], handle := 1 } ∧
    (pinnedOne (offered 1 0)).canTake 5 2 = some 0 ∧ (pinnedOne (offered 1 0)).requestBad ((offered 1 0).ringRead 5 0x10000 256)
      (requestOf ((offered 1 0).ringRead 5 0x10000 256) 5 0 2 0 (some { slot := 4, tenant := 2, adapter := 255, tokens := [], handle := 1 }) 0)
      (some { slot := 4, tenant := 2, adapter := 255, tokens := [], handle := 1 }) = false := by decide +kernel
theorem wit_admissionDraining : ({ offered 0 0 with core := { serving.core with st := .draining } } : State).canTake 5 2 = some 0 ∧
    tenanted.canTake 5 2 = none ∧ State.reset.core.st ≠ .serving := by decide +kernel
/-- The engine whose ring 5 has one new cancel entry, of zeros, and a waiting request, which it names. -/
def cancelling : State :=
  let s := tenanted.ringWrite 5 16 (leBytes 1 8)
  { s with serve := { s.serve with reqs := [{ request5 (offered 0 0) with entry := 0, deadline := 1 }] }, time := { ns := 0 } }
theorem wit_cancelScan : (cancelling.ringTenant 5).isSome = true ∧ cancelling.ringCtr 5 2 = cancelling.ringCtr 5 3 + 1 ∧
    cancelling.ringCtr 7 2 ≤ cancelling.ringCtr 7 3 ∧ entField (cancelling.ringRead 5 (0x1000 + 64 * (cancelling.ringCtr 5 3 % 256)) 64) 8 4 = 0 ∧
    cancelling.cancelStamp 5 0 < 1 ∧ cancelling.serve.reqs.all (fun q => q.ring == 5 && q.entry == 0 && q.id == 0 && q.inStep.isNone) = true := by
  decide +kernel
theorem wit_waitingDeadline : ({ request5 (offered 0 0) with deadline := 1 } : Request).waitingEnd 1 = some 3 ∧
    (cancelling.serve.reqs.map (fun (q : Request) => (q.ring, q.entry))).Nodup := by decide +kernel

/-- A request with its whole prompt to compute. -/
def waiting5 : Request := { request5 (offered 0 0) with promptOff := 0x60000 }
/-- The engine with that request waiting. -/
def waitingState : State := { tenanted with serve := { tenanted.serve with reqs := [waiting5] } }
/-- A step whose row is sampled. -/
def sampled7 : Step := { step7 with logAcked := true, samples := [(0, 5)] }
theorem wit_stepSend : waitingState.core.st = .serving ∧ waitingState.recov.unhosted = [] ∧ waitingState.descFree = some 0 := by
  decide +kernel
theorem wit_stepFill : (waitingState.offerOrder.foldl (fun (a : Fill) r => waitingState.offerTo a r) ({} : Fill)).reqs.length = 1 := by
  decide +kernel
/-- A parcel that posted the logits of row 0 at SRAM offset 0: one value, 1.0. -/
def logits : ParcelState :=
  { awake with swp := { inReset := false, step := 7 }, reports := [.post 0x0200000000000000], sram := [(0, 1), (6, 0x80), (7, 0x3F)] }
/-- The engine with those logits. -/
def logitState : State := { stepping step7 logits with model := { vocab := { nvocab := 1 } } }
theorem wit_sample : logitState.stepOf 7 = some step7 ∧ step7.committed = false ∧ row3 ∈ step7.rows ∧ row3.sample = true ∧
    (logitState.logitsOf 7 0).isSome = true := by decide +kernel
theorem wit_stepDone : sampled7.committed = false ∧ sampled7.doneSent = false ∧ sampled7.spoiled = false ∧
    sampled7.need ≤ sampled7.rows.length ∧ sampled7.logAcked = true ∧ sampled7.sampled = true ∧
    (∀ x ∈ (stepping sampled7 awake).parcels, ∀ h ∈ x.2.kv.homeWrites, h.step = 7 → h.run = sampled7.replays → h.n = 0) ∧ (stepping sampled7 awake).stepReports 7 = [] ∧ sampled7.owner = (stepping sampled7 awake).model.ordinal := by
  decide +kernel
theorem wit_commitDecision : ({ sampled7 with doneFrom := [0] } : Step).tc = none ∧ sampled7.sampled = true ∧
    (∀ k, k < Nat.max 1 (stepping sampled7 awake).model.nengine → k ∈ ({ sampled7 with doneFrom := [0] } : Step).doneFrom) ∧
    ({ sampled7 with tc := some 9, commitRec := some 3, commitAcked := true } : Step).tc.isSome = true := by decide +kernel
/-- A step of ordinal 1 that its owner has committed. -/
def foreign : Step :=
  { step7 with owner := 1, committed := true, outcomes := [{ ring := 0, entry := 0, slot := 3, tokens := [], len := 1, status := none, reason := 0 }] }
/-- A parcel that reported an image exception of step 7. -/
def faulted : ParcelState := { awake with swp := { inReset := false, step := 7 }, reports := [.exception 1 0 0 0xA6000 false] }
theorem wit_commitRows : foreign.owner ≠ (stepping foreign awake).model.ordinal ∧ foreign.committed = true ∧
    (foreign.outcomes.map (fun (o : Outcome) => o.slot)).Nodup ∧ (stepping step7 faulted).stepReports 7 ≠ [] ∧
    ((((stepping step7 faulted).stepReports 7).filterMap (fun r => imageFault r.2)).any (fun f => step7.image.contains f)) = false ∧
    ((((stepping step7 faulted).stepReports 7).filterMap (fun r => imageFault r.2)).any
      (fun f => ({ step7 with image := [(1, 0xA6000)] } : Step).image.contains f)) = true ∧
    (∀ r ∈ (stepping step7 faulted).stepReports 7, hardFault r.2 = false ∧ r.2.isLost = false ∧ ∀ a n, r.2 ≠ .data (.record a) n) ∧
    (∃ r ∈ (stepping step7 { faulted with reports := [.data .lost 7] }).stepReports 7, r.2.isLost = true ∧ hardFault r.2 = false) ∧
    ({ step7 with since := 1 } : Step).since + 100000000 ≤ 200000000 ∧
    ({ serving.core with st := .draining, drainMs := some 1 } : Core).drainFrom + 1000000 * 1 ≤ 200000000 := by
  have h : (stepping step7 faulted).stepReports 7 = [(0, .exception 1 0 0 0xA6000 false)] := by decide +kernel
  refine ⟨by decide, rfl, by decide, by decide +kernel, by decide +kernel, by decide +kernel, ?_, ⟨(0, .data .lost 7), by decide +kernel⟩, by decide, by decide⟩
  simp [h, hardFault, Report.isLost]

/-! ### SM3 and the trailer of a command -/

/-- The digest that the standard gives for the message "abc". -/
theorem test_sm3 : sm3 [0x61, 0x62, 0x63] =
    [0x66, 0xC7, 0xF0, 0xF4, 0x62, 0xEE, 0xED, 0xD9, 0xD1, 0xF2, 0xD4, 0x6B, 0xDC, 0x10, 0xE4, 0xE2,
     0x41, 0x67, 0xC4, 0x87, 0x5C, 0xF2, 0xF7, 0xA2, 0x29, 0x7D, 0xA0, 0x2B, 0x8F, 0x4B, 0xA8, 0xE0] := by decide +kernel

/-- The block that the standard gives for SM4. -/
theorem test_sm4 : sm4 0x0123456789ABCDEFFEDCBA9876543210 0x0123456789ABCDEFFEDCBA9876543210 =
    0x681EDF34D206965E86B3E94F536E4246 := by decide +kernel

/-- SM2's base point lies on the curve, and so does its double. -/
theorem test_sm2 : sm2G.any (fun g => sm2On g.1 g.2) ∧ (sm2Add sm2G sm2G).any (fun g => sm2On g.1 g.2) := by decide +kernel

theorem leBytes_leNat (l : List Byte) : leBytes (leNat l) l.length = l := by
  induction l with
  | nil => rfl
  | cons b l ih =>
    have h1 : BitVec.ofNat 8 (b.toNat + 256 * leNat l) = b := by
      apply BitVec.eq_of_toNat_eq
      have := b.isLt
      simp only [BitVec.toNat_ofNat]
      omega
    have h2 : (b.toNat + 256 * leNat l) / 256 = leNat l := by
      have := b.isLt
      omega
    simp only [List.length_cons, leNat, leBytes, h1, h2, ih]

theorem leNat_lt (l : List Byte) : leNat l < 256 ^ l.length := by
  induction l with
  | nil => simp [leNat]
  | cons b l ih =>
    have := b.isLt
    simp only [leNat, List.length_cons, Nat.pow_succ]
    omega

theorem beBytes_length (n k : Nat) : (beBytes n k).length = k := by
  induction k with
  | zero => rfl
  | succ k ih => simp [beBytes, ih]

theorem sm3_length (m : List Byte) : (sm3 m).length = 32 := by simp [sm3, beBytes_length]

theorem hmac_length (k m : List Byte) : (hmacSm3 k m).length = 32 := sm3_length _

/-- An elected engine under a management key, in an engine state. -/
def keyed (st : EngSt) (s : State) : State := { s with core := { s.core with epoch := 1, st := st }, nv := { s.nv with mkey := some 7 } }
/-- The header of a command with counter 1 and a tag. -/
def tagged (t : BitVec 256) : MgmtHdr := { hdr0 with ctr := 1, tag := t }

/-- Under a management key every command has a trailer with which it can be carried out, in every state with an election behind it that
took no command before. -/
theorem canCommand_of_tag (s : State) (k : BitVec 256) (f : MgmtHdr → Instr) (op : Nat) (b : List Byte) (ha : s.answers = true)
    (hk : s.nv.mkey = some k) (hc : s.sec.lastCtr = 0) (hf : ∀ t, hostEncode (f (tagged t)) = some (tagged t, op, b)) :
    ∃ t, s.canCommand (f (tagged t)) := by
  have hcmd : ∀ t, cmdFor (f (tagged t)) = cmdOf (tagged t) op b := by intro t; simp [cmdFor, hf t]
  obtain ⟨l, hd⟩ : ∃ l, l = s.cmdTag k (cmdOf (tagged 0) op b) := ⟨_, rfl⟩
  have hl : l.length = 32 := by rw [hd, State.cmdTag, hmac_length]
  have ht : ∀ t, s.cmdTag k (cmdOf (tagged t) op b) = l := by intro t; rw [hd]; simp only [State.cmdTag, cmdOf, tagged]
  refine ⟨BitVec.ofNat 256 (leNat l), ha, by simp [hf], fun _ => ⟨?_, ?_, ?_, ?_⟩⟩
  · have hlt : leNat l < 2 ^ 256 := by
      have := leNat_lt l
      rw [hl] at this
      exact lt_of_lt_of_eq this (by decide)
    have e : leBytes (BitVec.ofNat 256 (leNat l)).toNat 32 = l := by
      have h0 := leBytes_leNat l
      rw [hl] at h0
      rw [BitVec.toNat_ofNat, Nat.mod_eq_of_lt hlt, h0]
    have htag : ∀ t, (cmdOf (tagged t) op b).tag = t := fun _ => rfl
    simp only [State.tagOk, hk, Option.any_some, hcmd, ht, htag, e, beq_self_eq_true]
  · rw [hcmd, hc]; exact Nat.one_pos
  · rw [hcmd]; simp [State.floorFails, cmdOf, tagged, hdr0]
  · rw [hcmd]; rfl

/-- Every host command can be carried out in some state. -/
theorem wit_canCommand (k : BitVec 8) (q r : BitVec 16) (n : BitVec 32) (w : Word) (a : BitVec 128) (h : BitVec 256) (e : BitVec 512)
    (bs : List Byte) (o : LoadOps) (fo : FabricOps) (bo : BindOps) :
    ∀ f ∈ ([fun m => .engineSetState m k n, fun m => .districtSetState m k k, fun m => .setClockMode m k k,
      fun m => .setRation m k q r, fun m => .setCap m n, fun m => .setValve m q r a, fun m => .modelLoad m o,
      fun m => .modelUnload m k k k, fun m => .layerSetResidency m q k, fun m => .traverse m k k q k k, fun m => .prefixRelease m w,
      fun m => .quote m h k, fun m => .fabricSetConfig m fo, fun m => .ringBind m bo, fun m => .ownerSet m e,
      fun m => .mgmtKey m bs e, fun m => .trustSet m k e, fun m => .firmwareUpdate m n k bs, fun m => .engineReset m,
      fun m => .regRead m w q k] : List (MgmtHdr → Instr)),
    ∃ t, (keyed .standby State.reset).canCommand (f (tagged t)) := by
  intro f hf
  have go : ∃ op b, ∀ t, hostEncode (f (tagged t)) = some (tagged t, op, b) := by
    simp only [List.mem_cons, List.not_mem_nil, or_false] at hf
    rcases hf with rfl | rfl | rfl | rfl | rfl | rfl | rfl | rfl | rfl | rfl | rfl | rfl | rfl | rfl | rfl | rfl | rfl | rfl | rfl | rfl <;>
      exact ⟨_, _, fun _ => rfl⟩
  obtain ⟨op, b, h⟩ := go
  exact canCommand_of_tag (keyed .standby State.reset) 7 f op b (by decide +kernel) rfl rfl h
/-- A command that is not authenticated, one whose counter is used up, one of which the log holds the reply. -/
def logged : State := { keyed .standby State.reset with sec := { lastCtr := 1 }, core := { (keyed .standby State.reset).core with
  cmdLog := [{ ctr := 0, tag := 0, reply := [1] }] } }
theorem wit_hostAuthentication : (hostEncode (.setCap hdr0 5)).isSome = true ∧ State.reset.answers = false ∧
    (keyed .standby State.reset).answers = true ∧ (keyed .standby State.reset).needsTrailer 5 = true ∧ State.reset.tagOk (cmdFor (.setCap hdr0 5)) = false ∧
    (cmdFor (.setCap hdr0 5)).ctr.toNat ≤ logged.sec.lastCtr ∧
    logged.core.cmdLog.find? (fun y => y.ctr == (cmdFor (.setCap hdr0 5)).ctr && y.tag == (cmdFor (.setCap hdr0 5)).tag) =
      some { ctr := 0, tag := 0, reply := [1] } ∧
    (keyed .standby State.reset).core.cmdLog.find? (fun y => y.ctr == (cmdFor (.setCap hdr0 5)).ctr) = none ∧
    (keyed .standby State.reset).nv.floor ≤ (cmdFor (.setCap (tagged 0) 5)).ctr.toNat ∧
    (cmdFor (.setCap { tagged 0 with flashOk := false } 5)).flashOk = false ∧
    (keyed .standby State.reset).sec.lastCtr < (cmdFor (.setCap (tagged 0) 5)).ctr.toNat := by decide +kernel

/-! ### The premises of the statements about Avenue, links and time -/

/-- A header of a message from engine 3 to engine 0, of no records or one. -/
def hdr3 (nrec : BitVec 8) (aux : BitVec 32) : AveHdr := { zeroHdr with nrec := nrec, srcE := 3, aux := aux }
/-- A message with a good HCRC on link 0. -/
def ave (typ : Nat) (nrec : BitVec 8) (aux : BitVec 32) (body : List Byte) : AveIn :=
  { link := 0, onMgmt := false, roce := false, hdr := hdr3 nrec aux, hcrc := BitVec.ofNat 32 (crc32c (aveHead typ (hdr3 nrec aux))), body := body }
/-- An engine of fabric ID 0 with link 0 up. -/
def linked : State := { serving with fab := { ok := true, engineId := 0, ports := [(0, { mode := 1, linkUp := 1 })] } }
theorem wit_avenueChecks : linked.fab.ok = true ∧ serving.linkLive 0 = false ∧ linked.linkLive 0 = true ∧
    linked.aveBad 2 (ave 2 0 0 []) = false ∧ linked.aveBad 3 (ave 2 0 0 []) = true ∧ (hdr3 0 0).dstE.toNat = linked.fab.engineId ∧
    (hdr3 0 0).srcE ≠ 0x3FFF ∧ atOrBelow 0 ({ rxCum := 0 } : Peer).rxCum = true ∧ ({ linked with fab := { linked.fab with engineId := 5 } }).fab.engineId ≠ 0 ∧
    0 ∈ ({ rxAbove := [0] } : Peer).rxAbove := by decide +kernel
theorem wit_avenueRows : (linked.aveTake 1 (ave 1 1 7 goodRecord)).2 = true ∧ aveRecords 1 goodRecord = [goodRecord] ∧
    linked.net.place.lookup 0 = none ∧ (treed awake).net.place.lookup 0 = some p1 ∧ (0 : PortId).val = 0 / 8 % 16 ∧
    (({ linked with net := (treed awake).net }).inject 1 0 0 0 (.parcel p1) (.port 0) (.kapAck 0)).isSome = true ∧
    (linked.aveCheck 2 (ave 2 0 0 [])).2 = true ∧
    (({ unacked := [{ mseq := 0, bytes := [], link := 0 }] } : Peer).unacked.filter (fun u => !ackCovers 0 0 u.mseq)).all
      (fun u => decide (ackLater 0 0 u.mseq < 3)) = true ∧
    linked.linkOpen (linked.linkFor linked.liveLinks 0) = true ∧ (linked.aveCheck 8 (ave 8 0 0 [])).2 = true := by decide +kernel
/-- The body of a STEP message: a descriptor of ordinal 2 whose rows are still to come. -/
def stepBody : List Byte := storedRecord (rawBody (leBytes 0 4 ++ leBytes 2 4 ++ leBytes 0 4 ++ leBytes 1 4 ++ List.replicate 48 0))
theorem wit_stepMessages : (linked.aveTake 4 (ave 4 1 7 stepBody)).2 = true ∧ linked.stepOf 7 = none ∧ linked.descFree = some 0 ∧
    entField (payloadOf (ave 4 1 7 stepBody)) 4 4 = 2 ∧ linked.model.ordinal ≠ 2 ∧
    ({ linked with serve := { steps := [step7] } }.aveTake 5 (ave 5 0 7 [])).2 = true ∧
    step7.owner = linked.model.ordinal ∧ step7.committed = false ∧
    ({ linked with serve := { steps := [{ foreign with committed := false }] } }.aveTake 6 (ave 6 0 7 [])).2 = true ∧
    foreign.owner ≠ linked.model.ordinal := by decide +kernel
/-- The body of an MGMT message: the first 16 bytes of 32, or one too short. -/
def fragBody (total : Nat) : List Byte := storedRecord (rawBody (leBytes 9 8 ++ leBytes 0 2 ++ leBytes 16 2 ++ leBytes total 4 ++ List.replicate 48 1))
/-- A v1 header with a good CRC or a bad one. -/
def v1msg (typ : BitVec 4) (good : Bool) : AveV1In :=
  let m : AveV1In := { onMgmt := false, src := 3, typ := typ, rsv := 0, length := 0, srcE := 3, dstE := 0, seq := 4, crc := 0, body := [] }
  { m with crc := BitVec.ofNat 32 (crc32c (aveV1Head m) + if good then 0 else 1) }
theorem wit_mgmtMessages : linked.answers = true ∧ (linked.aveTake 7 (ave 7 1 0 (fragBody 32))).2 = true ∧
    ((fragOf (payloadOf (ave 7 1 0 (fragBody 32)))).any (fun f => decide (f.xid = 9 ∧ f.bytes.length < f.total ∧ f.off + f.bytes.length ≤ f.total))) = true ∧
    linked.held 9 3 = none ∧ linked.mgmt.reasm.length < 16 ∧ fragOf (payloadOf (ave 7 1 0 (fragBody 8))) = none ∧
    fragXid (payloadOf (ave 7 1 0 (fragBody 8))) = some 9 ∧ linked.fab.ok = true ∧ aveV1Bad (v1msg 7 true) = false ∧
    aveV1Bad (v1msg 8 true) = false ∧ aveV1Bad (v1msg 7 false) = true ∧ (v1msg 8 true).dstE.toNat = linked.fab.engineId ∧
    (v1msg 8 true).srcE ≠ 0x3FFF := by decide +kernel
/-- A record on its way to engine 3 at port 0. -/
def egressFlit : Flit := flitTo (.port 0) (.egress flow1 3 0 0 true goodRecord 7)
/-- That record in the port block. -/
def waitingRec : EgressRec :=
  { key := { flow := flow1, dstE := 3, dstP := 0, raw := true, step := 7 }, fseq := 0, bytes := goodRecord, flit := 9, tenant := 0 }
/-- The linked engine with a probed peer that has an unacknowledged message, resent some times; port 0 may be paused. -/
def peered (resent : Nat) (paused sent : Bool) : State :=
  { linked with
    fab := { linked.fab with
      ports := [(0, { mode := 1, linkUp := 1, paused := paused })]
      peers := [(3, { probed := true, unacked := [{ mseq := 5, bytes := [1], link := 0, resent := resent, sent := sent }] })] }
    net := { flits := [egressFlit] } }
theorem wit_messageRows : (peered 0 false true).egressAt 0 = [waitingRec] ∧ ((peered 0 false true).peer 3).probed = true ∧
    (peered 0 false true).liveLinks.filter (fun l => l / 8 == 0) = [0] ∧ (peered 0 false true).linkOpen ((peered 0 false true).linkFor [0] 0) = true ∧
    (((peered 7 false true).peer 3).unacked.find? (fun y => y.mseq == 5)).any (fun u => decide (u.resent < 8)) = true ∧
    (((peered 8 false true).peer 3).unacked.find? (fun y => y.mseq == 5)).any (fun u => decide (8 ≤ u.resent)) = true ∧
    ((peered 0 true false).port 0).paused = true ∧ (peered 0 true false).heldFrames 0 ≠ [] ∧
    ({ peered 0 true false with time := { ns := 1000001 } }.port 0).pauseSince + 1000000 < 1000001 := by decide +kernel
/-- The linked engine with links 0 and 8 up in mode 1, so that another live link stands beside link 0. -/
def twoLinks : State := { linked with fab := { linked.fab with ports := [(0, { mode := 1, linkUp := 1 }), (1, { mode := 1, linkUp := 1 })] } }
theorem wit_linkRows : (linked.port 0).linkUp.getLsbD 0 = true ∧ linked.liveLinks ≠ [] ∧ (∃ n ∈ twoLinks.liveLinks, n ≠ 0) ∧
    (∀ n ∈ twoLinks.liveLinks, 1 ≤ (modeLinks (twoLinks.port (n / 8)).mode).2) ∧
    (0 < (modeLinks ({ mode := 1 } : Port).mode).1 ∧ ({ mode := 1 } : Port).linkUp.getLsbD 0 = false) ∧
    (List.range 60).any (fun d => linked.live d && linked.portLive d 0) = true ∧
    (List.range 60).any (fun d => linked.live d && linked.portLive d 5) = false ∧ linked.core.st ≠ .off ∧ (linked.port 0).oscFail = false ∧
    (linked.port 5).linkUp = 0 ∧ ((List.range 8).filter (fun i => (linked.port 0).linkUp.getLsbD i)).flatMap (linked.port 0).lanesOf ≠ [] ∧
    ([{ id := 0, scope := 3, d := 0, parcel := 0, lot := 0, port := 0, todo := [1] }] : List Trav).all (fun y =>
      y.port == 0 && y.todo.all (fun n => n / 8 == y.port && n != 0)) = true ∧
    linked.ptpPort 16 = true ∧ linked.ptpPort 0 = true ∧ (-1000 : Int) ≤ -1000 ∧ ¬ ((-1000 : Int) ≤ -1001) := by decide +kernel

/-! ### The premises of the statements about power, clocks and cooling -/

/-- A parcel with its regulator on and some phases. -/
def powered (ph : BitVec 5) : ParcelState := { awake with reg := { on := true, phOk := ph } }
/-- The serving engine whose registry is district 7, with parcel 0 powered. -/
def running (ph : BitVec 5) : State := { serving with core := { serving.core with registry := 7, deputy := 0 }, parcels := [(0, powered ph)] }
theorem wit_meterRows : ({ serving with pwr := { sCap := 256, vin := 5000 } } : State).capEff < 20001 ∧ (powered 31).reg.on = true ∧
    256 ≠ 0 ∧ 16 ≤ 16 ∧ ({} : Pwr).capUnmet = none ∧ forwards (serving.dist 0).st = true ∧
    (Sparse.get ({ a := {}, b := {} } : Copies DistRec) serving.nv.calDist 0).aOk = true := by decide +kernel
theorem wit_faultRows : (running 31).load.phase ≠ 4 ∧ (running 31).load.phase ≠ 5 ∧ forwards ((running 31).dist 0).st = true ∧
    (running 31).core.st ≠ .boot ∧ 0 ≠ (running 31).core.registry ∧ (powered 31).reg.on = true ∧ (powered 31).reg.phOk.getLsbD 4 = true ∧
    4 ≤ ({ (powered 31).reg with phOk := (powered 31).reg.phOk &&& ~~~ (BitVec.ofNat 5 (2 ^ 4)) } : Regulator).phases ∧
    ({ (powered 15).reg with phOk := (powered 15).reg.phOk &&& ~~~ (BitVec.ofNat 5 (2 ^ 3)) } : Regulator).phases < 4 ∧
    (running 31).core.st ≠ .off ∧ (({ switchOn := some { target := .active } } : DistState).switchOn).isSome = true := by decide +kernel
/-- Readings of 40.0 C, or of 115.0 C, at every site. -/
def sites (t : Int) : SiteReadings := { s0 := .value t, s1 := .value t, s2 := .value t, s3 := .value t }
theorem wit_sensorRows : forwards ((running 31).dist 0).st = true ∧ (((running 31).dist 0).sample (sites 400) (sites 400) []).trip115 < 2 ∧
    2 ≤ (({ (running 31).dist 0 with trip115 := 1 } : DistState).sample (sites 1150) (sites 1150) []).trip115 ∧
    (([(0, .value 400)] : List (Fin 144 × Reading)).map Prod.fst).Nodup ∧
    (Sparse.get ({} : Site) ((running 31).dist 0).sites 0).aFail = false := by decide +kernel
theorem wit_flowRows : serving.core.air = false ∧ (600 : Int).natAbs ≤ 600 ∧ (836 * (0 : Int).natAbs < 10 * 1) ∧ 10 * 1 ≤ 836 * (600 : Int).natAbs ∧
    serving.cool.low80 = false ∧ ({ flow := 287 } : Cool).q = some 287 ∧ 10 * 287 < 8 * serving.cool.setpoint ∧ serving.cool.switchFail = false ∧
    serving.cool.switchOpen = false ∧ serving.cool.flowFail = false ∧ serving.cool.lost = false ∧ ¬ (serving.core.st = .boot ∧ serving.boot.step = 2) ∧
    ({ switchOpen := true } : Cool).switchOpen = true ∧ serving.hottest.isSome = true ∧ State.reset.hottest = none ∧ ({} : Cool).q.isSome = true := by
  decide +kernel
theorem wit_coolantRows : serving.cool.reversed = false ∧ serving.cool.flowFail = false ∧ serving.cool.inPair.dead = false ∧
    serving.core.air = false ∧ ({ air := true } : Core).air = true ∧ serving.core.epoch ≠ 0 ∧ serving.core.st ≠ .off ∧ (({ destPort := 1 } : Cool).destPort ≠ 0) := by decide +kernel

/-! ### The premises of the statements about host commands -/

/-- A keyed engine that hosts a logical parcel in district 7, which is IDLE. -/
def idleHost : State := { keyed .loaded State.reset with dists := [(7, { st := .idle })], net := { place := [(0, pidOf (144 * 7))] } }
/-- A keyed engine in FAULT for a lost coolant, with its registry and a second warden alive; the flow may be back. -/
def coolFault (lost : Bool) : State :=
  let s := keyed .fault { State.reset with dists := [(0, { st := .active, live := true }), (1, { st := .active, live := true })], cool := { lost := lost } }
  { s with core := { s.core with cause := 11 } }
theorem wit_engineCommands : (keyed .loaded State.reset).answers = true ∧ (keyed .loaded State.reset).nv.mkey = some 7 ∧
    (keyed .loaded State.reset).sec.lastCtr = 0 ∧ (keyed .loaded State.reset).idleWork = false ∧ idleHost.idleWork = true ∧ idleHost.answers = true ∧
    (keyed .serving State.reset).serve.reqs = [] ∧ (keyed .draining State.reset).core.st = .draining ∧ (coolFault true).answers = true ∧
    (coolFault true).causePersists = true ∧ (coolFault false).causePersists = false ∧ (coolFault false).sec.tamper = false ∧
    (60000 : BitVec 32).toNat ≤ 60000 := by decide +kernel
/-- A keyed engine in STANDBY whose district 0 is in a power state. -/
def standing (st : PSt) : State := { keyed .standby State.reset with dists := [(0, { st := st })] }
theorem wit_budgetCommands : (standing .dark).answers = true ∧ (standing .dark).nv.fused.getLsbD 0 = false ∧
    budgetOk ((standing .dark).loadOf ((standing .dark).toPower 0) 0) = true ∧
    budgetOk ((standing .spare).loadOf ((standing .spare).poweredPids 0) 0) = true ∧ ((standing .tripped).dist 0).busy = false ∧
    (standing .active).holdsWork 0 = false ∧ (3 : BitVec 8).toNat ≤ 3 ∧ (143 : BitVec 16).toNat < 144 ∧ (320 : BitVec 16).toNat ≤ 320 ∧
    budgetOk (30780000 - 900000) = true ∧ budgetOk (30780001 - 900000) = false ∧ 100 ≤ (400 : BitVec 16).toNat ∧ (400 : BitVec 16).toNat ≤ 400 ∧
    400 < (401 : BitVec 16).toNat := by decide +kernel
/-- A district of whose parcels 128 are powered under a ration. -/
def rationed (r : Nat) : State :=
  { standing .active with parcels := (List.range 128).map (fun p => (p, { meter := { ration := r }, reg := { on := true, vset := 20 } })) }
theorem wit_budgetExceeded : budgetOk ((rationed 250).loadOf ((rationed 250).poweredPids 0) 0) = true ∧
    budgetOk ((rationed 320).loadOf ((rationed 320).poweredPids 0) 0) = false := by decide +kernel
/-- Operands of MODEL_LOAD of a base model. -/
def loadBase : LoadOps := { load0 with next := 0x3FFF, envelope := List.replicate 161 0, tenants := List.replicate 16 default }
/-- The same of an adapter. -/
def loadAdapter : LoadOps := { loadBase with kind := 1, slot := 3, tenant := 2 }
/-- A loaded keyed engine of one layer, with adapter 3. -/
def modelled : State :=
  { keyed .loaded State.reset with model := { loaded := true, layers := [{ index := 4, streamed := false, slotNs := 0, streamNs := 0, records := 0, share := 0 }],
                                              adapters := [(3, {})] },
                                   dists := [(0, { st := .spare }), (1, { st := .active })] }
/-- The same engine with a lot of layer 4 on a logical parcel that nothing hosts. -/
def unmapped : State :=
  { modelled with model := { modelled.model with lots := [{ lp := 0, lot := 2, layer := 4, seg := 0, thresh := 12, driftMode := 1 }] } }
theorem wit_modelCommands : (keyed .standby State.reset).loadOpsOk loadBase = true ∧ (keyed .loaded State.reset).loadOpsOk loadAdapter = true ∧
    (keyed .standby State.reset).load.phase = 0 ∧ modelled.answers = true ∧ modelled.sec.lastCtr = 0 ∧
    (modelled.model.adapters.lookup 3).any (fun a => !a.released) = true ∧ modelled.model.layers.any (fun l => l.index == 4) = true ∧
    (State.mapAll (modelled.missingLots 4) modelled).isSome = true ∧ (State.mapAll (unmapped.missingLots 4) unmapped).isNone = true ∧
    (∀ scope ∈ [0, 2, 3, 4], modelled.travOk scope 0 143 17 15 = true ∧
      modelled.travPowered { id := 0, scope := scope, d := 0, parcel := 143, lot := 17, port := 15 } = true) ∧ modelled.cal.active = [] ∧
    (modelled.dist 0).st = .spare ∧ (modelled.dist 0).busy = false ∧
    ([{ slot := 5, tenant := 0, adapter := 255, tokens := [], handle := 9 }] : List Prefix).find? (fun y => y.handle == 9 && !y.dropping) =
      some { slot := 5, tenant := 0, adapter := 255, tokens := [], handle := 9 } := by decide +kernel
/-- PARCEL scope on a parcel without work; a load of adapter 3 in progress. -/
theorem wit_modelTraverse : modelled.travOk 1 0 143 0 0 = true ∧ modelled.logicalAt (pidOf 143) = none ∧
    ({ phase := 1, kind := 1, slot := 3 } : Load).ended = none := by decide +kernel
/-- A fabric configuration. -/
def fabricOne : FabricOps := { fabric0 with engineId := 10239, encap := 1, prio := 7, modes := List.replicate 16 11 }
/-- Operands of RING_BIND. -/
def bindOps : BindOps := { ring := 127, mtu := 2, clientQpn := 0xFFFFFF, clientPsn := 0, enginePsn := 0xFFFFFF, clientIp := 1 }
theorem wit_trustCommands : fabricOk fabricOne = true ∧ bindOps.ring.toNat < 128 ∧ bindOps.mtu.toNat ≤ 2 ∧ bindOps.clientQpn.toNat < 2 ^ 24 ∧
    bindOps.enginePsn.toNat < 2 ^ 24 ∧ (ringed 0).connUp 5 = true ∧ (keyed .standby State.reset).nv.owner = none ∧ hdr0.onMgmt = true ∧
    ({ owner := some 5 } : Nv).owner.isSome = true ∧ (List.replicate 161 (0 : Byte)).length = 161 ∧
    ((keyed .standby State.reset).nv.trust.current).getD [] = [] ∧ (List.replicate 32 (1 : BitVec 512)).length = 32 ∧
    (2 : BitVec 512) ∉ List.replicate 32 (1 : BitVec 512) ∧ (keyed .standby State.reset).sec.tamper = false ∧
    runOk 0x200000000008 1 = true ∧ regPlace 0x200000000008 = some (.eng 8) ∧
    (((keyed .standby State.reset).commanded (.regRead hdr0 0x200000000008 1 1)).regValue 0x200000000008).isSome = true := by decide +kernel
set_option exponentiation.threshold 600 in
/-- A trusted key and its fingerprint as an operand. -/
theorem wit_fingerprint : ∃ key : BitVec 512, key.toNat < 2 ^ 256 ∧ pubId 5 = leBytes key.toNat 32 := by
  have hl : (pubId 5).length = 32 := sm3_length _
  have hlt : leNat (pubId 5) < 2 ^ 256 := by
    have := leNat_lt (pubId 5)
    rw [hl] at this
    exact lt_of_lt_of_eq this (by decide)
  have h0 := leBytes_leNat (pubId 5)
  rw [hl] at h0
  have e : (BitVec.ofNat 512 (leNat (pubId 5))).toNat = leNat (pubId 5) := by
    rw [BitVec.toNat_ofNat, Nat.mod_eq_of_lt (Nat.lt_trans hlt (Nat.pow_lt_pow_right (by decide) (by decide)))]
  exact ⟨BitVec.ofNat 512 (leNat (pubId 5)), by rw [e]; exact hlt, by rw [e, h0]⟩

/-! ### The premises of the statements about districts, spares, loads, lots and test access -/

/-- A district with a switch-on to ACTIVE in progress. -/
def switching (st : PSt) (probed : Bool) : State :=
  { serving with dists := [(0, { st := st, busy := true, replyTo := some default, switchOn := some { target := .active, probed := probed } })],
                 pwr := { vin := 5000 } }
theorem wit_switchRows : (switching .dark false).headroomOk ((switching .dark false).switchLoad 0) = true ∧
    ((switching .dark false).dist 0).st = .dark ∧ ((switching .spare false).dist 0).st ≠ .dark ∧
    ((switching .dark true).dist 0).st.domainOff = true ∧ ((switching .dark false).dist 0).replyTo.isSome = true ∧
    ((switching .dark false).dist 0).switchOn = some { target := .active, probed := false } ∧
    ({ target := .active } : SwitchOn).since + 5000000 ≤ ({ switching .dark false with time := { ns := 5000000 } }).time.ns ∧
    (serving.dist 0).switchOn = none ∧ ({ busy := true, replyTo := some default } : DistState).replyTo.isSome = true ∧
    serving.model.loaded = false ∧ (PSt.retain).takesPower = true ∧ (PSt.spare).takesPower = false := by decide +kernel
/-- A loaded engine that hosts logical parcel 0 on parcel 1, which is fenced, and logical parcel 1 on parcel 0 of district 7, ACTIVE
or DARK. -/
def hosting (st : PSt) : State :=
  { serving with dists := [(0, { st := .active, live := true }), (7, { st := st, live := st == .active })],
                 parcels := [(1, { awake with health := { bollard := true } })], pwr := { vin := 5000 },
                 model := { loaded := true }, net := { place := [(0, p1), (1, pidOf (144 * 7))] } }
/-- The same engine with no other ACTIVE district. -/
def crowded : State := { hosting .dark with dists := [(0, { st := .idle, live := true })] }
/-- The same engine, which moves logical parcel 1 from district 7 to parcel 0 of district 0. -/
def restoringOne : State := { hosting .dark with parcels := [(0, awake)], recov := { restoring := [{ from_ := 7, lp := 1, p := p0 }] } }
theorem wit_spareRows : (hosting .dark).model.loaded = true ∧ (hosting .dark).live 7 = false ∧ (hosting .dark).stranded 7 = [(1, pidOf (144 * 7))] ∧
    (hosting .dark).logicalAt p1 = some 0 ∧ ((hosting .dark).parcel p1).health.bollard = true ∧ (hosting .dark).nextPlace.lookup 0 = some p1 ∧
    crowded.logicalAt p1 = some 0 ∧ (crowded.parcel p1).health.bollard = true := by decide +kernel
theorem wit_spareChoice : (hosting .dark).chooseSpares ((hosting .dark).spareOrder 7) 1 [] = [p0] ∧
    (hosting .dark).bringInOk [p0] [pidOf (144 * 7)] = true ∧ (hosting .dark).bringInOk [p0] [p1] = true ∧
    (hosting .dark).chooseSpares ((hosting .dark).spareOrder 0) 1 [] = [p0] ∧ crowded.chooseSpares (crowded.spareOrder 0) 1 [] = [] := by
  decide +kernel
/-- PARCEL scope on a parcel with work: with a spare parcel, and without. -/
theorem wit_vacate : (hosting .dark).travOk 1 0 1 0 0 = true ∧
    (hosting .dark).travPowered { id := 0, scope := 1, d := 0, parcel := 1, lot := 0, port := 0 } = true ∧
    (hosting .dark).cal.active = [] ∧ (hosting .dark).core.st = .serving ∧ pidOf (144 * 0 + 1) = p1 ∧
    crowded.nextPlace.lookup 0 = some p1 := by decide +kernel
theorem wit_districtRestored : restoringOne.recov.restoring.filter (fun r => r.from_ == 7) ≠ [] ∧
    (restoringOne.recov.restoring.filter (fun r => r.from_ == 7)).all (fun r => r.p.d == (0 : DistId) && restoringOne.running r.p &&
      (restoringOne.model.rewriting.filter (fun j => j.p == r.p)).all (fun j => j.traversed)) = true ∧ restoringOne.core.st = .serving := by
  decide +kernel
/-- Stacks of which some are lost, stack 3 for its route alone. -/
def stacked (l : List Nat) : State := { serving with stk := { lost := l, routeLost := [3] } }
theorem wit_stackRows : 5 ∉ (stacked [0, 3]).stk.lost ∧ 2 ≤ (stacked [0, 3]).stk.lost.length ∧ (stacked [3]).stk.lost.length < 2 ∧
    3 ∈ (stacked [3]).stk.routeLost ∧ (stacked [3]).stackRouted 3 = true ∧ 0x69C00000 + 72 ≤ stackSize ∧
    recordOk ((serving.stackPut 0x69C00000 goodRecord).stackRead 0x69C00000 72) = true ∧
    recordOk ((serving.stackPut 0x69C00000 (List.replicate 72 7)).stackRead 0x69C00000 72) = false ∧
    1 < ([1, 2] : List Nat).eraseDups.length ∧ serving.segmentAt 0x69C00000 = none ∧ serving.slotsAt 0x69C00000 = [] := by decide +kernel

/-- A linked engine that receives segment 0 of two records, or its deed. -/
def receiving (deed : Bool) : State :=
  { linked with load := { phase := if deed then 1 else 2,
                          deed := if deed then none else some { segs := [{ records := 2, addr := 0x80000000 }] } } }
/-- A LOAD message of one record of a segment, numbered. -/
def loadMsg (aux : BitVec 32) (fseq : BitVec 32) : AveIn :=
  let h : AveHdr := { hdr3 1 aux with fseq := fseq }
  { link := 0, onMgmt := false, roce := false, hdr := h, hcrc := BitVec.ofNat 32 (crc32c (aveHead 3 h)), body := goodRecord }
theorem wit_loadMessages : ((receiving false).aveTake 3 (loadMsg 0 0)).2 = true ∧ ((receiving false).aveTake 3 (loadMsg 0 1)).2 = true ∧
    (receiving false).load.ended = none ∧ ({ segs := [{ records := 2, addr := 0x80000000 }] } : Deed).segs[0]? = some { records := 2, addr := 0x80000000 } ∧
    ({} : SegEntry).keptBy 0 = true ∧ ((receiving true).aveTake 3 (loadMsg 0xFFFFFFFF 0)).2 = true ∧
    ((receiving true).aveTake 3 (loadMsg 0xFFFFFFFF 1)).2 = true ∧ (receiving true).load.next = 0x3FFF ∧ (receiving true).load.deed = none := by
  decide +kernel
theorem wit_deedShort : (payloadOf (loadMsg 0xFFFFFFFF 0)).length = 64 := by decide +kernel
/-- A job for lot 3 of parcel 0. -/
def job3 (rw done : Bool) : LotJob :=
  { lp := 0, p := p0, l := 3, logical := 5, seg := 0, thresh := 12, driftMode := 1, rewrite := rw, programmed := done, traversed := done }
/-- An engine that loads with that job; parcel 0 as given. -/
def programming (rw done : Bool) (phase : Nat) (x : LotState) : State :=
  { demo (lot3 x) with load := { phase := phase, jobs := if rw then [] else [job3 rw done], deed := some { segs := [{ kind := 1 }] } },
                       model := { rewriting := if rw then [job3 rw done] else [] } }
theorem wit_lotProgram : (programming true false 0 {}).jobOf p0 3 = some (job3 true false) ∧ (programming true false 0 {}).running p0 = true ∧
    (programming false false 4 {}).jobOf p0 3 = some (job3 false false) ∧ ((programming false false 4 {}).parcel p0).health.bollard = false ∧
    ((programming false false 4 {}).parcel p0).mapped 3 = false ∧ ((programming false false 4 {}).parcel p0).meter.halt = false ∧
    (((programming false false 4 {}).parcel p0).lot 3).prog = .idle ∧ (programming false false 4 {}).mayProgram (job3 false false) = true ∧
    (((programming true false 0 { prog := .programming true }).parcel p0).lot 3).prog = .programming true := by decide +kernel
/-- Without failed sites the outlier list of a lot stays within its 4,096 entries. -/
theorem wit_lotProgramDone (s : State) (ps : ParcelState) (l : Nat) (j : LotJob) (a : Nat) :
    (ps.programmed l (s.lotPlan a j.seg) (((s.segOutliers a j.seg).takeWhile (fun w => w ≠ 0)).map outlierOf)
      ((List.range 1024).map (s.segScale a j.seg)) [] j a).2 ≤ 4096 := by
  have hput : ∀ (m : Sparse Nat) (k v : Nat), (Sparse.put m k v).length ≤ m.length + 1 := by
    intro m k v
    induction m with
    | nil => simp [Sparse.put]
    | cons e m ih =>
      obtain ⟨k', v'⟩ := e
      simp only [Sparse.put]
      split
      · simp
      · split
        · simp
        · simp only [List.length_cons]; omega
  have hfold : ∀ (es : List (Nat × Nat)) (m : Sparse Nat),
      (es.foldl (fun (m : Sparse Nat) e => Sparse.put m e.1 e.2) m).length ≤ m.length + es.length := by
    intro es
    induction es with
    | nil => intro m; simp
    | cons e es ih =>
      intro m
      have h1 := ih (Sparse.put m e.1 e.2)
      have h2 := hput m e.1 e.2
      simp only [List.foldl_cons, List.length_cons]
      omega
  have hr : (s.segOutliers a j.seg).length = 3840 := by
    simp only [State.segOutliers, List.length_flatMap, List.length_map, List.length_range]
    decide +kernel
  have ht : ((s.segOutliers a j.seg).takeWhile (fun w => w ≠ 0)).length ≤ 3840 :=
    Nat.le_trans (List.takeWhile_sublist _).length_le (Nat.le_of_eq hr)
  have hnone : ∀ r : List Nat, r.filterMap (fun _ => (none : Option (Nat × Nat))) = [] := by
    intro r
    induction r with
    | nil => rfl
    | cons _ _ ih => simp
  simp only [ParcelState.programmed, mergedOutliers, List.length_map]
  refine Nat.le_trans (hfold _ _) ?_
  simp only [List.any_nil, Bool.false_eq_true, if_false, hnone, List.length_append, List.length_map, List.length_nil]
  have hflat : (List.range 1024).flatMap (fun _ => ([] : List (Nat × Nat))) = [] := by simp
  simp only [hflat, List.filter_nil, List.length_nil]
  omega
theorem wit_loadDone : (programming false true 5 {}).load.jobs.all (fun x => x.programmed && x.traversed) = true ∧
    (programming false true 5 {}).net.place.all (fun x => (programming false true 5 {}).running x.2) = true ∧
    ([{ kind := 1 }] : List SegEntry).find? (fun e => e.kind == 1 && e.target == 0) = some { kind := 1 } ∧
    ({ ended := some 17 } : Load).ended = some 17 ∧ ([(3, {})] : Sparse Adapter).lookup 3 = some {} := by decide +kernel

/-- An engine whose parcel 0 hosts logical parcel 0, its lot 3 mapped as logical lot 5 of layer 4. -/
def servingLot (spares : Bool) : State :=
  { demo { mapped with health := { lotsRetired := if spares then 0 else 0x3FFF7 } } with
    net := { place := [(0, p0)] }
    model := { lots := [{ lp := 0, lot := 5, layer := 4, seg := 0, thresh := 12, driftMode := 1 }] } }
theorem wit_lotService : (servingLot true).logicalAt p0 = some 0 ∧ ((servingLot true).parcel p0).health.lotsRetired.getLsbD 3 = false ∧
    ((servingLot true).parcel p0).logicalOf 3 = some 5 ∧ ((servingLot false).parcel p0).health.lotsRetired.getLsbD 3 = false ∧
    (servingLot true).spareLot p0 = some 0 ∧ (servingLot false).spareLot p0 = none ∧ (4 : Nat) ∉ (servingLot true).model.forced ∧
    (demo (lot3 { prog := .programming true })).running p0 = true ∧ (lot3 { prog := .programming true }).heldMa + 560 ≤ 10 * (lot3 {}).meter.eff ∧
    64 ≤ ({ audits := 64 } : LotState).audits ∧ 1311 ≤ ({ resid := 1311 } : LotState).resid ∧
    ([{ id := 2, scope := 0, d := 0, parcel := 0, lot := 3, port := 0 }] : List Trav).find? (fun x => x.id == 2) =
      some { id := 2, scope := 0, d := 0, parcel := 0, lot := 3, port := 0 } ∧ awake.mapped 3 = false ∧
    (linked.travWaits { id := 2, scope := 4, d := 0, parcel := 0, lot := 0, port := 0 }
      { benchOk := true, lots := [], parcels := [], vmin := [], sensorsOk := [], parcelSensors := [], padsOk := 0, links := [],
        internalOk := true, eyes := [], flashOk := true }) = false := by decide +kernel
theorem wit_tapRows : serving.core.st ≠ .off ∧ serving.core.st ≠ .standby ∧ serving.core.st ≠ .fault ∧ loading.core.st = .standby := by
  decide +kernel

/-! ### Single steps, with results worked out by hand from the manual -/

/-- g3 after an ALU instruction of g1 and g2 in the demonstration engine. -/
def aluResult (f : Pid → AluOps → Instr) (a b : Word) : Word :=
  ((got (exec (f p0 (alu false 2 0)) (demo (regs [(1, a), (2, b)])))).parcel p0).gReg 3

/-- R181: ADD wraps; MULH gives the high half of the signed product; a division by 0 gives all ones, its remainder the dividend; the most
negative number by −1 gives itself, remainder 0. -/
theorem test_alu : aluResult .add 0xFFFFFFFFFFFFFFFF 2 = 1 ∧ aluResult .mulh 0xFFFFFFFFFFFFFFFF 2 = 0xFFFFFFFFFFFFFFFF ∧
    aluResult .div 5 0 = 0xFFFFFFFFFFFFFFFF ∧ aluResult .rem 5 0 = 5 ∧ aluResult .div 0x8000000000000000 0xFFFFFFFFFFFFFFFF = 0x8000000000000000 ∧
    aluResult .rem 0x8000000000000000 0xFFFFFFFFFFFFFFFF = 0 ∧ aluResult .sra 0x8000000000000000 65 = 0xC000000000000000 ∧
    aluResult .sltu 1 0xFFFFFFFFFFFFFFFF = 1 ∧ aluResult .slt 1 0xFFFFFFFFFFFFFFFF = 0 := by decide +kernel
/-- R170: a write to g0 is ignored. -/
theorem test_g0 : ((got (exec (.li p0 { rd := 0, rsv := 0, imm := 7 }) (demo awake))).parcel p0).gReg 0 = 0 := by decide +kernel
/-- R182: LI extends the sign of its number. -/
theorem test_li : ((got (exec (.li p0 { rd := 5, rsv := 0, imm := 0xFFFFFFFFFFFF }) (demo awake))).parcel p0).gReg 5 = 0xFFFFFFFFFFFFFFFF := by
  decide +kernel
/-- R150: the check value of CRC-32C for the nine digits. -/
theorem test_crc32c : crc32c [0x31, 0x32, 0x33, 0x34, 0x35, 0x36, 0x37, 0x38, 0x39] = 0xE3069283 := by decide +kernel
/-- A store is read back, little-endian. -/
theorem test_store : ((got (exec (.st32 p0 mem21) (demo (regs [(1, 0x100), (2, 0x11223344)])))).parcel p0).read 0x100 4 = [0x44, 0x33, 0x22, 0x11] := by
  decide +kernel
/-- R193: an event of the image waits while 56 of them fill the queue; one of the firmware does not. -/
theorem test_events : eventFits (List.replicate 56 imageEvent) imageEvent = false ∧ eventFits (List.replicate 56 imageEvent) fwEvent = true ∧
    eventFits (List.replicate 64 fwEvent) fwEvent = false := by decide +kernel
/-- The first command of the queue runs, the other stays. -/
theorem test_step : (got (step { demo awake with pending := [.stop p0, .resume p0] })).pending = [.resume p0] ∧
    ((got (step { demo awake with pending := [.stop p0, .resume p0] })).parcel p0).swp.stopped = true := by decide +kernel
/-- R21, R270: the block of stack 0 lies on the north edge of district 0; a parcel's eastern neighbour receives at its west port. -/
theorem test_plan : blockPlace (.stack 0) = some (0, 0) ∧ neighbour p0 2 = some (p1, 3) ∧ distRC 54 = (7, 1) := by decide +kernel

end Sys2Proof.Tests
end

section
/-!
SUPPORT. LI and LHI (06 R182): the registers that an exception leaves, the value LHI computes, and the statement that both complete.
-/
namespace Sys2Proof.Machine

/-! ### Scalar registers across an exception (06 R199) -/

@[simp] theorem ParcelState.raise_swp_fw (ps : ParcelState) (cause unit tag lot epc : Nat) (fw : Bool) :
    (ps.raise cause unit tag lot epc fw).swp.fw = ps.swp.fw := by
  simp only [ParcelState.raise]; split <;> rfl

@[simp] theorem ParcelState.raise_swp_g (ps : ParcelState) (cause unit tag lot epc : Nat) (fw : Bool) :
    (ps.raise cause unit tag lot epc fw).swp.g = ps.swp.g := by
  simp only [ParcelState.raise]; split <;> rfl

@[simp] theorem ParcelState.raise_swp_fg (ps : ParcelState) (cause unit tag lot epc : Nat) (fw : Bool) :
    (ps.raise cause unit tag lot epc fw).swp.fg = ps.swp.fg := by
  simp only [ParcelState.raise]; split <;> rfl

/-- An exception keeps every scalar register of the running bank. -/
@[simp] theorem ParcelState.gReg_raise (ps : ParcelState) (cause unit tag lot epc : Nat) (fw : Bool) (n : Nat) :
    (ps.raise cause unit tag lot epc fw).gReg n = ps.gReg n := by
  simp only [ParcelState.gReg, ParcelState.raise_swp_fw, ParcelState.raise_swp_g, ParcelState.raise_swp_fg]

@[simp] theorem ParcelState.gReg_precise (ps : ParcelState) (cause tag n : Nat) : (ps.precise cause tag).gReg n = ps.gReg n :=
  ps.gReg_raise ..

/-! ### The value of LHI -/

/-- The mask of LHI keeps bits 47:0. -/
theorem getLsbD_lhiMask (i : Nat) : (0x0000FFFFFFFFFFFF#64).getLsbD i = decide (i < 48) := by
  have hmask : 0x0000FFFFFFFFFFFF#64 = (BitVec.allOnes 48).setWidth 64 := rfl
  rw [hmask, BitVec.getLsbD_setWidth, BitVec.getLsbD_allOnes]
  simp only [Bool.and_eq_right_iff_imp, decide_eq_true_eq]
  omega

/-- The shift and the mask of LHI put bits 15:0 of the number above bits 47:0 of the register. -/
theorem lhi_value (imm : BitVec 48) (g : Word) :
    (imm.setWidth 64 <<< 48) ||| (g &&& 0x0000FFFFFFFFFFFF#64) = imm.extractLsb' 0 16 ++ g.extractLsb' 0 48 := by
  apply BitVec.eq_of_getLsbD_eq
  intro i hi
  rw [BitVec.getLsbD_or, BitVec.getLsbD_and, getLsbD_lhiMask, BitVec.getLsbD_shiftLeft]
  by_cases hlow : i < 48
  · rw [bit_append_low _ _ i hlow]
    simp [hlow]
  · have hnum : i - 48 < 16 := by omega
    have hword : i - 48 < 64 := by omega
    rw [bit_append_high _ _ i (Nat.not_lt.1 hlow)]
    simp [hlow, hi, hnum, hword]

/-! ### LI and LHI (06 R182) -/

theorem exec_li (p : Pid) (o : ImmOps) (s : State) : exec (.li p o) s = execLi p o s := rfl

theorem exec_lhi (p : Pid) (o : ImmOps) (s : State) : exec (.lhi p o) s = execLhi p o s := rfl

/-- LI completes with its sign-extended number in g[RD]. -/
theorem execLi_done {s : State} {p : Pid} {o : ImmOps} (hrsv : o.rsv = 0) (hissue : s.canIssue p 0 = true) :
    execLi p o s =
      .next (s.afterIssue p 0 ((s.parcel p).setG o.rd.toNat (o.imm.signExtend 64)) (s.parcel p).next) :=
  issueAt_done hissue (by simp [hrsv]) rfl

/-- LHI with a number of 16 bits completes with that number above bits 47:0 of g[RD]. -/
theorem execLhi_done {s : State} {p : Pid} {o : ImmOps} (hrsv : o.rsv = 0) (hissue : s.canIssue p 0 = true)
    (himm : o.imm.toNat < 2 ^ 16) :
    execLhi p o s =
      .next (s.afterIssue p 0
        ((s.parcel p).setG o.rd.toNat (o.imm.extractLsb' 0 16 ++ ((s.parcel p).gReg o.rd.toNat).extractLsb' 0 48))
        (s.parcel p).next) := by
  rw [← lhi_value]
  exact issueAt_done hissue (by simpa [hrsv] using himm) rfl

/-- LHI with a nonzero bit above bit 15 of its number is ILLEGAL. -/
theorem execLhi_illegal {s : State} {p : Pid} {o : ImmOps} (hat : s.atInstr p = true) (himm : 2 ^ 16 ≤ o.imm.toNat) :
    execLhi p o s = .next (s.afterExc p 1) :=
  issueAt_illegal hat (by rw [decide_eq_true himm, Bool.or_true])

/-- Settles O13: LI and LHI complete with R182's values, and the ILLEGAL form of LHI leaves every register. -/
theorem immResults : Obligations.ImmResults := by
  intro s p o hrsv
  refine ⟨fun hissue => ?_, fun hissue himm => ?_, fun hat himm => ⟨?_, fun n => ?_⟩⟩
  · exact exec_li p o s ▸ execLi_done hrsv hissue
  · exact exec_lhi p o s ▸ execLhi_done hrsv hissue himm
  · exact exec_lhi p o s ▸ execLhi_illegal hat himm
  · exact (s.parcel p).gReg_precise 1 0 n

end Sys2Proof.Machine
end

section
/-!
SUPPORT. HINT (07 R233): the parcel with a forecast in force and what a forecast leaves alone, the fields of the word, and the statement that
HINT completes and HINT_EXPIRY ends the forecast.
-/
namespace Sys2Proof.Machine

/-! ### The forecast in force (R233) -/

/-- The parcel with a forecast of `draw`, in 10 mA units, for `dur` windows in the place of the one in force. -/
def ParcelState.withForecast (ps : ParcelState) (draw dur : Nat) : ParcelState :=
  { ps with meter := { ps.meter with forecast := draw, forecastWindows := dur } }

/-- The draw that HINT puts in force. -/
def hintDraw (o : HintOps) : Nat := if o.dur = 0 then 0 else min o.draw.toNat 320

/-- A DRAW above 320 is read as 320. -/
theorem hintDraw_eq (o : HintOps) :
    hintDraw o = if o.dur = 0 then 0 else if 320 < o.draw.toNat then 320 else o.draw.toNat := by
  have hclamp : min o.draw.toNat 320 = if 320 < o.draw.toNat then 320 else o.draw.toNat := by
    split
    next habove => exact Nat.min_eq_right (Nat.le_of_lt habove)
    next hbelow => exact Nat.min_eq_left (Nat.not_lt.1 hbelow)
  rw [hintDraw, hclamp]

@[simp] theorem ParcelState.withForecast_eff (ps : ParcelState) (draw dur : Nat) :
    (ps.withForecast draw dur).meter.eff = ps.meter.eff := rfl

@[simp] theorem ParcelState.withForecast_ration (ps : ParcelState) (draw dur : Nat) :
    (ps.withForecast draw dur).meter.ration = ps.meter.ration := rfl

@[simp] theorem ParcelState.withForecast_modeApplied (ps : ParcelState) (draw dur : Nat) :
    (ps.withForecast draw dur).meter.modeApplied = ps.meter.modeApplied := rfl

/-- Admission reads the meter's HALT and guard, the draws and the ration, and none of them is the forecast. -/
@[simp] theorem ParcelState.admits_withForecast (ps : ParcelState) (draw dur c : Nat) :
    (ps.withForecast draw dur).admits c = ps.admits c := rfl

/-! ### The fields of the word (R178, R204, R233) -/

/-- A field below bit 54 of a word is that field of its operand bits. -/
theorem extract_platWord (c : BitVec 4) (op : BitVec 6) (b : BitVec 54) {start len : Nat} (h : start + len ≤ 54) :
    (platWord c op b).extractLsb' start len = b.extractLsb' start len :=
  extract_append_low _ b start len h

theorem platEncode_hint (p : Pid) (o : HintOps) : platEncode (.hint p o) = some (p, platWord 13 0 (hintBits o)) := rfl

theorem hintBits_draw (o : HintOps) : (hintBits o).extractLsb' 34 12 = o.draw := congrArg HintOps.draw (hintOf_hintBits o)

theorem hintBits_dur (o : HintOps) : (hintBits o).extractLsb' 18 16 = o.dur := congrArg HintOps.dur (hintOf_hintBits o)

/-- The word of HINT holds DRAW in bits 45:34 and DUR in bits 33:18. -/
theorem platEncode_hint_fields {p : Pid} {o : HintOps} {w : BitVec 64} (h : platEncode (.hint p o) = some (p, w)) :
    w.extractLsb' 34 12 = o.draw ∧ w.extractLsb' 18 16 = o.dur := by
  rw [platEncode_hint] at h
  obtain rfl : platWord 13 0 (hintBits o) = w := congrArg Prod.snd (Option.some.inj h)
  exact ⟨(extract_platWord 13 0 _ (by decide)).trans (hintBits_draw o),
    (extract_platWord 13 0 _ (by decide)).trans (hintBits_dur o)⟩

/-! ### HINT and HINT_EXPIRY (R233) -/

theorem exec_hint (p : Pid) (o : HintOps) (s : State) : exec (.hint p o) s = execHint p o s := rfl

theorem exec_hintExpiry (p : Pid) (s : State) : exec (.hintExpiry p) s = execHintExpiry p s := rfl

/-- HINT completes with its forecast in the place of the one in force. -/
theorem execHint_done {s : State} {p : Pid} {o : HintOps} (hissue : s.canIssue p 0 = true) (hhi : o.rsvHi = 0) (hrsv : o.rsv = 0) :
    execHint p o s =
      .next (s.afterIssue p 0 ((s.parcel p).withForecast (hintDraw o) o.dur.toNat) (s.parcel p).next) :=
  issueAt_done hissue (by simp [hhi, hrsv]) rfl

/-- HINT_EXPIRY leaves a forecast of 0 for 0 windows. -/
theorem execHintExpiry_eq (s : State) (p : Pid) :
    execHintExpiry p s = .next (s.setParcel p ((s.parcel p).withForecast 0 0)) := rfl

/-- Settles O21: HINT completes with the forecast of its fields, whose place in the word is R233's, HINT_EXPIRY ends it, and a forecast
leaves admission, ration and clock mode alone. -/
theorem hintForecast : Obligations.HintForecast := by
  intro s p o
  refine ⟨fun hissue hhi hrsv => ?_, ?_, fun w hw => ?_, fun draw dur => ⟨?_, ?_, ?_, fun c => ?_⟩⟩
  · rw [exec_hint, execHint_done hissue hhi hrsv, hintDraw_eq]
    rfl
  · exact exec_hintExpiry p s ▸ execHintExpiry_eq s p
  · exact platEncode_hint_fields hw
  · exact (s.parcel p).withForecast_eff draw dur
  · exact (s.parcel p).withForecast_ration draw dur
  · exact (s.parcel p).withForecast_modeApplied draw dur
  · exact (s.parcel p).admits_withForecast draw dur c

end Sys2Proof.Machine
end
